-- ==== Sys2Proof/Word.lean ====
section
/-! DEFINITION. The word types of the Z4 and the plainest bit helpers. -/

namespace Sys2Proof

/-- A byte of memory. -/
abbrev Byte := BitVec 8
/-- A 64-bit register value. -/
abbrev Word := BitVec 64
/-- One half of an instruction pair (R41). -/
abbrev Half := BitVec 32
/-- A vector register value (R12). -/
abbrev VWord := BitVec 512
/-- Number of a g register (R12). -/
abbrev GIx := Fin 16
/-- Number of a predicate (R12). -/
abbrev PIx := Fin 16
/-- Number of a v register (R12). -/
abbrev VIx := Fin 8
/-- Number of a tile (R25). -/
abbrev TIx := Fin 8
/-- Number of a lane register of a context program (R237). -/
abbrev CIx := Fin 4

end Sys2Proof
end

