-- ==== Sys2Proof/Machine/Flags.lean ====
section
/-! DEFINITION. SSTAT bits (R21), the fields of RND (R19), and the flag rules that integer arithmetic shares. -/

namespace Sys2Proof.Machine

/-- The status bits of SSTAT (R21). -/
abbrev Flags := BitVec 9

namespace Flag
/-- Invalid operation. -/
def nv : Flags := 0x001
/-- Overflow. -/
def of : Flags := 0x002
/-- Underflow. -/
def uf : Flags := 0x004
/-- Inexact. -/
def nx : Flags := 0x008
/-- Divide by zero. -/
def dz : Flags := 0x010
/-- An atomic's target home lay outside its declared scope. -/
def scopex : Flags := 0x020
/-- A Dead register was read. -/
def deadrd : Flags := 0x040
/-- A value was clamped. -/
def satur : Flags := 0x080
/-- A wait completed with a poisoned status. -/
def poisonseen : Flags := 0x100
end Flag

/-- The flag when the condition holds, no flag otherwise. -/
def flagIf (c : Bool) (f : Flags) : Flags := if c then f else 0

/-- Rounding modes (R83). -/
inductive RMode | rne | rtz | rdn | rup
  deriving DecidableEq, Repr

/-- The fields of RND (R19). -/
structure Rnd where
  mode : RMode
  sat : Bool
  ftz : Bool
  nanCanon : Bool
  deriving DecidableEq, Repr

/-- RND from its register bits (R19). -/
def Rnd.ofBits (b : BitVec 5) : Rnd :=
  { mode := match b.toNat % 4 with | 0 => .rne | 1 => .rtz | 2 => .rdn | _ => .rup
    sat := b.getLsbD 2, ftz := b.getLsbD 3, nanCanon := b.getLsbD 4 }

/-- An exact integer narrowed to `n` bits, two's complement: wrapped, or clamped with SATUR and OF under SAT (R82). -/
def narrowSigned (n : Nat) (sat : Bool) (x : Int) : BitVec n × Flags :=
  if sat ∧ x > 2 ^ (n - 1) - 1 then (BitVec.ofInt n (2 ^ (n - 1) - 1), Flag.satur ||| Flag.of)
  else if sat ∧ x < -(2 ^ (n - 1)) then (BitVec.ofInt n (-(2 ^ (n - 1))), Flag.satur ||| Flag.of)
  else (BitVec.ofInt n x, 0)

end Sys2Proof.Machine
end

