-- ==== Sys2Proof/Syntax.lean ====
section
/-! DEFINITION. The instructions, context instructions and events of spec/opcode_table.json, one constructor per row. -/

namespace Sys2Proof

/-- Scopes (R4). -/
inductive Scope | core | clu | die | dev | fab
  deriving DecidableEq, Repr
/-- Order of an atomic (R53, R165). -/
inductive AOrder | rlx | acq | rel | ar
  deriving DecidableEq, Repr
/-- Order of a FENCE (R167). -/
inductive FOrder | acq | rel | ar
  deriving DecidableEq, Repr
/-- Access size of format CM (R53). -/
inductive Size | b | h | w | d
  deriving DecidableEq, Repr
/-- Access size of format CA (R53). -/
inductive ASize | w | d | wu | du
  deriving DecidableEq, Repr
/-- Vector element size (R55). -/
inductive ESize | w | h | b
  deriving DecidableEq, Repr
/-- Lane kind of a vector operation that has a `.f` form (R73): integer lanes of a size, or FP32 lanes. -/
inductive Lane | w | h | b | f
  deriving DecidableEq, Repr
/-- Scalar floating-point format (R55). -/
inductive FFmt | f32 | f16 | bf16
  deriving DecidableEq, Repr
/-- Kinds of sync object (R179). -/
inductive ObjKind | flag | counter | barrier | timeline | release | reduce
  deriving DecidableEq, Repr
/-- Operations of REDPUT (R71). -/
inductive RedOp | sum | max | min | maxabs
  deriving DecidableEq, Repr
/-- Sign choice of FSGN (R111). -/
inductive SgnMode | cpy | neg | xor
  deriving DecidableEq, Repr
/-- Integer conditions (R103). -/
inductive ICond | eq | ne | lt | ge | ltu | geu
  deriving DecidableEq, Repr
/-- Floating-point conditions (R114). -/
inductive FCond | eq | lt | le | un | ne
  deriving DecidableEq, Repr
/-- Conversions of FCVT (R115). -/
inductive FCvt | toI64 | fromI64 | toF32 | fromF32 | toI32 | fromI32
  deriving DecidableEq, Repr
/-- Conversions of VCVT (R74). -/
inductive VCvt
  | f32f16 | f32bf16 | f32e5m2 | f32e4m3 | f32e2m1 | f32i32 | f32i8
  | f16f32 | bf16f32 | e5m2f32 | e4m3f32 | e2m1f32 | i32f32 | i8f32
  deriving DecidableEq, Repr
/-- Integer conditions of VCMP (R127). -/
inductive VICond | eq | ne | lt | le | ltu | leu
  deriving DecidableEq, Repr
/-- Floating-point conditions of VCMP (R127). -/
inductive VFCond | eq | ne | lt | le | un
  deriving DecidableEq, Repr
/-- The comparison a VCMP makes, with its lanes (R127). -/
inductive VCmpOp | int (e : ESize) (c : VICond) | flt (c : VFCond)
  deriving DecidableEq, Repr
/-- Operations of VRED (R130). -/
inductive VRedOp | sum | min | max
  deriving DecidableEq, Repr
/-- Selectors of CGET (R239). -/
inductive GetSel | e | aux | p (n : Fin 8)
  deriving DecidableEq, Repr
/-- Selectors of CPUT (R239). -/
inductive PutSel | e | aux
  deriving DecidableEq, Repr
/-- The second operand of a context instruction (R238). -/
inductive Op2 | reg (c : CIx) | imm (v : BitVec 16)
  deriving DecidableEq, Repr
/-- Conditions of CCMP (R241). -/
inductive CCond | eq | ne | lt | ge | ltu | geu | flt | fle
  deriving DecidableEq, Repr
/-- Conditions of CJMP (R241). -/
inductive JCond | always | f | nf
  deriving DecidableEq, Repr
/-- Control registers (R17, R265). -/
inductive CReg
  | rnd | cmask | sstat | minrank | tid | rgn | wch | ecxsel | pc | lm | mode
  | mfmt | dpat | tline (n : Fin 4) | mbstat | wsphase
  | elsel | elog | wsfrz | sampctl | pcntclr
  deriving DecidableEq, Repr

/-- A Qworix packet (R349). Fields that a type does not use are zero; BYTES is the payload's length where the type
carries a payload and the requested length in a READ. -/
structure Packet where
  typ : BitVec 8
  vn : BitVec 2
  gen : BitVec 4
  nflit : BitVec 3
  birth : BitVec 12
  src : BitVec 12
  dst : BitVec 12
  srcEp : BitVec 11
  dstEp : BitVec 11
  ctr : BitVec 14
  rtag : BitVec 16
  offset : BitVec 48
  bytes : BitVec 16
  k : BitVec 48
  c : BitVec 24
  arg : BitVec 40
  payload : List Byte
  deriving DecidableEq, Repr

/-- What a storage device answers to an IORD (R231): the NVMe status, zero for success, and the bytes read. -/
structure IoReply where
  status : BitVec 16
  data : List Byte
  deriving DecidableEq, Repr

/-- What the scrubber finds in a protection unit (R322). -/
inductive ScrubFind | clean | correctable | uncorrectable | racedByWrite
  deriving DecidableEq, Repr

/-- A part that can fail (R393). -/
inductive Part | core (n : Nat) | cluster (n : Nat) | link (n : Nat) | bank (die chan bank : Nat) | die (n : Nat)
  deriving DecidableEq, Repr

/-- Entry of the queue table (R324). -/
structure QueueReg where
  valid : Bool
  ring : Word
  log2n : BitVec 4
  cpl : Word
  owner : BitVec 32
  prio : BitVec 4
  qrcb : Word
  deriving DecidableEq, Repr

/-- Entry of the peer table (R352). -/
inductive PeerState | unpopulated | live | disabled | dead
  deriving DecidableEq, Repr

/-- Entry of the table of exposed windows (R353). -/
structure WinEntry where
  valid : Bool
  obase : BitVec 48
  importer : BitVec 12
  any : Bool
  rd : Bool
  wr : Bool
  at_ : Bool
  size : BitVec 48
  revoked : Bool
  vbase : Word
  rgn : BitVec 24
  deriving DecidableEq, Repr

/-- Group entry (R362). -/
structure GroupEntry where
  valid : Bool
  local_ : Bool
  isRoot : Bool
  fwd : BitVec 6
  up : BitVec 3
  root : BitVec 12
  sub : BitVec 12
  midx : BitVec 12
  nmem : BitVec 12
  deriving DecidableEq, Repr

/-- Entry of the namespace table (R402). -/
structure NsEntry where
  valid : Bool
  qregion : Word
  ctrl : BitVec 16
  nsid : BitVec 32
  lbads : BitVec 4
  deriving DecidableEq, Repr

/-- A write by firmware or the host to a register or table that has no row of its own (REGISTER_WRITE, R7). -/
inductive RegWrite
  | queue (q : Nat) (e : QueueReg)                     -- service firmware, R324
  | queueRegion (q : Nat) (rcb ptroot : Word) (first ncores slotcap owner prio dramq pwr fdom : Nat) -- service firmware, R325
  | peer (p : Nat) (st : PeerState) (part : Bool)      -- root firmware, R352
  | window (n : Nat) (e : WinEntry)                    -- root firmware, R353
  | group (n : Nat) (e : GroupEntry) (members : List (BitVec 12)) -- root firmware, R362; log 13
  | hold (ms : BitVec 7)                               -- root firmware, R352
  | torus (dx dy dz : BitVec 5)                        -- root firmware, R347
  | peerNumber (p : BitVec 12) (partition : BitVec 16) -- root firmware, R6, R396
  | namespace_ (h : Nat) (e : NsEntry)                 -- service firmware, R402
  | notifyError (q : Nat)                              -- host clears ERROR, R326
  | supv (rcb : Word)                                  -- root firmware sets SUPV, R9
  | page (a v : Word)                                  -- root firmware, page tables of service firmware's regions, R394
  | sampleRing (die : Nat) (base : Word)               -- root firmware, R383
  | expander (port : Nat) (capacity : Nat)             -- enumeration of a port's device, R390
  | ready                                              -- service firmware sets DEVSTAT.READY, R399
  deriving DecidableEq, Repr

/-- A firmware image (R395): its header of 256 bytes and its body, and the public key that comes with it, whose hash the fuses
hold: the two coordinates of a point, most significant byte first (log 14). -/
structure FwImage where
  bytes : List Byte
  key : List Byte
  deriving DecidableEq, Repr

/-- How service firmware starts on a die (R394, R399): its region's RCB, page-table root and code bounds, and where it begins
(log 76). -/
structure FwStart where
  rcb : Word
  ptroot : Word
  codeBase : Word
  codeEnd : Word
  entry : Word
  deriving DecidableEq, Repr

/-- What bring-up at cold reset brings (R399): the images the boot ROM and root firmware verify, the links that train, the tables root
firmware writes, the start of service firmware on dies 0, 1 and so on, the clusters whose self-test fails, and the queue registrations
of service firmware. -/
structure BringUp where
  root : FwImage
  service : FwImage
  links : List Nat
  tables : List RegWrite
  starts : List FwStart
  failed : List Nat
  queues : List RegWrite
  deriving DecidableEq, Repr

/-- The instructions. The rows' predicate, settle and lone-bit fields belong to the pair (`Sys2Proof.Pair`). -/
inductive Instr
  -- C slot
  | cnop
  | br (off : BitVec 19)
  | brWide (lit : BitVec 32)
  | call (off : BitVec 19)
  | callWide (lit : BitVec 32)
  | jmp (a : GIx)
  | callr (a : GIx)
  | ret
  | halt
  | trapi (code : BitVec 8)
  | syscall (code : BitVec 8)
  | movl (d : GIx) (lit : BitVec 32)
  | movh (d : GIx) (lit : BitVec 32)
  | ld (sz : Size) (x : Bool) (d base : GIx) (off : BitVec 8)
  | ldWide (sz : Size) (x : Bool) (d base : GIx) (lit : BitVec 32)
  | lds (sz : Size) (x : Bool) (d base : GIx) (off : BitVec 8)
  | ldsWide (sz : Size) (x : Bool) (d base : GIx) (lit : BitVec 32)
  | st (sz : Size) (x : Bool) (d base : GIx) (off : BitVec 8)
  | stWide (sz : Size) (x : Bool) (d base : GIx) (lit : BitVec 32)
  | ldv (x : Bool) (d : VIx) (base : GIx) (off : BitVec 8)
  | ldvWide (x : Bool) (d : VIx) (base : GIx) (lit : BitVec 32)
  | stv (x : Bool) (d : VIx) (base : GIx) (off : BitVec 8)
  | stvWide (x : Bool) (d : VIx) (base : GIx) (lit : BitVec 32)
  | ldvs (e : ESize) (x : Bool) (d : VIx) (a b : GIx)
  | stvs (e : ESize) (x : Bool) (d : VIx) (a b : GIx)
  | vgath (e : ESize) (x : Bool) (d : VIx) (a : GIx) (b : VIx)
  | vscat (e : ESize) (x : Bool) (d : VIx) (a : GIx) (b : VIx)
  | aadd (sz : ASize) (sc : Scope) (o : AOrder) (d addr v : GIx)
  | aand (sz : ASize) (sc : Scope) (o : AOrder) (d addr v : GIx)
  | aor (sz : ASize) (sc : Scope) (o : AOrder) (d addr v : GIx)
  | axor (sz : ASize) (sc : Scope) (o : AOrder) (d addr v : GIx)
  | amin (sz : ASize) (sc : Scope) (o : AOrder) (d addr v : GIx)
  | amax (sz : ASize) (sc : Scope) (o : AOrder) (d addr v : GIx)
  | aswp (sz : ASize) (sc : Scope) (o : AOrder) (d addr v : GIx)
  | acas (sz : ASize) (sc : Scope) (o : AOrder) (d addr v : GIx)
  | afadd (sc : Scope) (o : AOrder) (d addr v : GIx)
  | fence (sc : Scope) (o : FOrder)
  | sbind (d a : GIx)
  | sunbind (d : GIx)
  | sstat (d a : GIx)
  | tld (td : TIx) (a b : GIx)
  | tldBd (td : TIx) (a b : GIx)
  | tst (td : TIx) (a b : GIx)
  | tstBd (td : TIx) (a b : GIx)
  | tplane (p : Fin 8) (d a b : GIx)
  | regput (a b : GIx)
  | emptyr (d : GIx)
  | obnew (k : ObjKind) (d a b : GIx)
  | oblige (a : GIx)
  | signal (a b : GIx)
  | arrive (a : GIx)
  | wait (d a b : GIx)
  | waitSh (d a b : GIx)
  | waita (d a : GIx)
  | xfer (a b : GIx)
  | obqry (d a : GIx)
  | rnkwin (d b : GIx)
  | poison (a : GIx) (code : BitVec 8)
  | tlwait (e : Fin 4) (b : GIx)
  | cpyqWt (a : GIx)
  | cpyqBz (p : PIx) (a : GIx)
  | wfm (d b : GIx)
  | mbrd (d b : GIx)
  | send (n : Fin 8) (a b : GIx)
  | sendOb (n : Fin 8) (d a b : GIx)
  | migr (a : GIx)
  | shelve (d a b : GIx)
  | wcopen (d a b : GIx)
  | wcsel (a : GIx)
  | wcrel (d a : GIx)
  | wcrelRp (d a b : GIx)
  | wcclose (a : GIx)
  | mcst (n : Fin 4) (a b : GIx)
  | mcrel (d a : GIx)
  | mcrelRp (d a b : GIx)
  | redput (op : RedOp) (ign : Bool) (d a b : GIx)
  | iordWt (a : GIx)
  | iordBz (p : PIx) (a : GIx)
  | scnext (q : PIx) (d : GIx)
  | swdecl (d a : GIx)
  | swbind (d a b : GIx)
  | swrun (a b : GIx)
  | swwake (a b : GIx)
  | swstat (d a : GIx)
  | crd (d : GIx) (r : CReg)
  | cwr (d : GIx) (r : CReg)
  | ctxrd (d a b : GIx)
  | ctxwr (d a b : GIx)
  | resume (a : GIx)
  | kill (a : GIx)
  | tlbinv (a b : GIx)
  | rdtime (d : GIx)
  | rdcyc (d : GIx)
  | pcnt (d a : GIx)
  -- A slot
  | anop
  | add (d a b : GIx)
  | sub (d a b : GIx)
  | mul (d a b : GIx)
  | mulh (d a b : GIx)
  | mulhu (d a b : GIx)
  | div (d a b : GIx)
  | divu (d a b : GIx)
  | rem (d a b : GIx)
  | remu (d a b : GIx)
  | and (d a b : GIx)
  | or (d a b : GIx)
  | xor (d a b : GIx)
  | andn (d a b : GIx)
  | shl (d a b : GIx)
  | shr (d a b : GIx)
  | sra (d a b : GIx)
  | min (d a b : GIx)
  | max (d a b : GIx)
  | minu (d a b : GIx)
  | maxu (d a b : GIx)
  | mov (d a : GIx)
  | addi (d a : GIx) (imm : BitVec 13)
  | andi (d a : GIx) (imm : BitVec 13)
  | ori (d a : GIx) (imm : BitVec 13)
  | xori (d a : GIx) (imm : BitVec 13)
  | shli (d a : GIx) (sh : BitVec 6)
  | shri (d a : GIx) (sh : BitVec 6)
  | srai (d a : GIx) (sh : BitVec 6)
  | movi (d : GIx) (imm : BitVec 13)
  | lea (d a b : GIx) (s : BitVec 3) (imm : BitVec 6)
  | cmp (c : ICond) (d : PIx) (a b : GIx)
  | cmpi (c : ICond) (d : PIx) (a : GIx) (imm : BitVec 10)
  | clz (d a : GIx)
  | ctz (d a : GIx)
  | popc (d a : GIx)
  | sext (d a : GIx) (w : BitVec 6)
  | zext (d a : GIx) (w : BitVec 6)
  | bfx (sx : Bool) (d a : GIx) (q n : BitVec 6)
  | bfi (d a : GIx) (q n : BitVec 6)
  | sel (d a b : GIx) (p : PIx)
  | pand (d a b : PIx)
  | por (d a b : PIx)
  | pxor (d a b : PIx)
  | pnot (d a : PIx)
  | pget (d : GIx)
  | pset (a : GIx)
  | lmget (d : GIx)
  | lmset (a : GIx)
  | fadd (f : FFmt) (d a b : GIx)
  | fsub (f : FFmt) (d a b : GIx)
  | fmul (f : FFmt) (d a b : GIx)
  | fmin (f : FFmt) (d a b : GIx)
  | fmax (f : FFmt) (d a b : GIx)
  | fdiv (f : FFmt) (d a b : GIx)
  | fsqrt (f : FFmt) (d a : GIx)
  | fsgn (f : FFmt) (m : SgnMode) (d a b : GIx)
  | fclass (f : FFmt) (d a : GIx)
  | ffma (f : FFmt) (negP negA : Bool) (d a b : GIx) (c : Option GIx)
  | fcmp (f : FFmt) (c : FCond) (d : PIx) (a b : GIx)
  | fcvt (f : FFmt) (c : FCvt) (d a : GIx)
  | vadd (k : Lane) (m : Bool) (vd va vb : VIx)
  | vsub (k : Lane) (m : Bool) (vd va vb : VIx)
  | vmul (k : Lane) (m : Bool) (vd va vb : VIx)
  | vmin (k : Lane) (m : Bool) (vd va vb : VIx)
  | vmax (k : Lane) (m : Bool) (vd va vb : VIx)
  | vabs (k : Lane) (m : Bool) (vd va : VIx)
  | vneg (k : Lane) (m : Bool) (vd va : VIx)
  | vand (e : ESize) (m : Bool) (vd va vb : VIx)
  | vor (e : ESize) (m : Bool) (vd va vb : VIx)
  | vxor (e : ESize) (m : Bool) (vd va vb : VIx)
  | vshl (e : ESize) (m : Bool) (vd va vb : VIx)
  | vshr (e : ESize) (m : Bool) (vd va vb : VIx)
  | vsra (e : ESize) (m : Bool) (vd va vb : VIx)
  | vsel (e : ESize) (m : Bool) (vd va vb vc : VIx)
  | vmov (e : ESize) (m : Bool) (vd va : VIx)
  | vfma (m : Bool) (vd va vb vc : VIx)
  | vcmp (op : VCmpOp) (m : Bool) (va vb : VIx)
  | vbcast (e : ESize) (vd : VIx) (g : GIx)
  | vext (e : ESize) (g : GIx) (vd : VIx) (lane : BitVec 6)
  | vins (e : ESize) (vd : VIx) (g : GIx) (lane : BitVec 6)
  | vperm (e : ESize) (m : Bool) (vd va vb vc : VIx)
  | vred (op : VRedOp) (k : Lane) (m : Bool) (vd va : VIx)
  | vamax (ign m : Bool) (vd va : VIx)
  | vcvt (c : VCvt) (vd va x : VIx)
  | vscale (m : Bool) (vd va vb : VIx)
  | vdot (fl : Bool) (vd va vb vc : VIx)
  | vrcp (vd va : VIx)
  | vexp2 (vd va : VIx)
  | tcfg (td : TIx) (a : GIx)
  | tzero (td : TIx)
  | trel (td : TIx)
  | mfmt (a : GIx)
  | mma (td : TIx) (a b : GIx)
  | mmai (td : TIx) (a b : GIx)
  | trowr (v : VIx) (td : TIx) (b : GIx)
  | troww (td : TIx) (v : VIx) (b : GIx)
  | tcolr (v : VIx) (td : TIx) (b : GIx)
  | tcolw (td : TIx) (v : VIx) (b : GIx)
  | tstat (a : GIx) (td : TIx)
  | ttrans (td ta : TIx)
  -- context instructions (R238)
  | ctxCnop
  | cmov (d : CIx) (o : Op2)
  | cidx (d : CIx)
  | cget (d : CIx) (s : GetSel)
  | cput (s : PutSel) (a : CIx)
  | cadd (d a : CIx) (o : Op2)
  | csub (d a : CIx) (o : Op2)
  | cmul (d a : CIx) (o : Op2)
  | cand (d a : CIx) (o : Op2)
  | cor (d a : CIx) (o : Op2)
  | cshl (d a : CIx) (o : Op2)
  | cshr (d a : CIx) (o : Op2)
  | cmin (d a : CIx) (o : Op2)
  | cmax (d a : CIx) (o : Op2)
  | cfadd (d a : CIx) (o : Op2)
  | cfmul (d a : CIx) (o : Op2)
  | cfmax (d a : CIx) (o : Op2)
  | ccmp (c : CCond) (a : CIx) (o : Op2)
  | cjmp (c : JCond) (t : BitVec 6)
  | cnb (d : CIx) (o : Op2)
  | cin (d : CIx)
  | cout (a : CIx)
  | cwe (a : CIx) (t : BitVec 6)
  | cws (s : Fin 16)
  | cww (o : Op2)
  | csig (k : Fin 4)
  | cdone
  | cflt (code : BitVec 8)
  -- events
  | accessComplete (core slot id : Nat) (err : Bool)
  | lateFault (core slot : Nat)
  | registerFill (core n : Nat)
  | streamElementFetch (core slot : Nat) (port : Fin 4)
  | streamDrain (core slot : Nat) (port : Fin 4)
  | matrixRequestStart (cluster : Nat)
  | matrixResultWrite (core : Nat) (err : Bool)
  | engineOperationStart (core : Nat)
  | engineOperationComplete (core n : Nat) (io : IoReply)
  | waitShelveTimeout (core slot : Nat)
  | orphanTimeout (n : Nat)
  | slotClaim (core : Nat)
  | migrationArrival (n : Nat)
  | starvationGuard (core slot : Nat)
  | preEmption (core slot : Nat)
  | preEmptionSave (core slot : Nat)
  | replyCatcher (core n id : Nat) (err : Bool)
  | trapRecord (core slot : Nat)
  | breakpoint (core slot : Nat)
  | storeCompare (core slot : Nat)
  | containment (core : Nat)
  | pageWalk (cluster : Nat) (root va : Word)
  | wsfrzWrite (die : Fin 4) (b : Bool)
  | wsfrzCopyUpdate (core : Nat) (die : Fin 4)
  | sampctlWrite (v : BitVec 8)
  | pcntclr (core : Nat)
  | registerWrite (w : RegWrite)
  | samplingPulse
  | weightStoreRefresh (die bank : Nat)
  | dramRefresh (die chan bank : Nat)
  | temperatureChange (die : Fin 4) (layer : Fin 8) (celsius : Int)
  | overheat (die : Fin 4) (b : BringUp)
  | scrub (key : Nat) (f : ScrubFind)
  | powerGrant (die : Fin 4) (amount : Nat)
  | tailWrite (q : Nat) (v : BitVec 32)
  | queueBind
  | queueUnbind (n : Nat)
  | nopEntry (q : Nat)
  | launchEntry (q : Nat)
  | waitobj (q : Nat)
  | signalobjOblige (q : Nat)
  | signalobjSignal (q : Nat)
  | signalobjPoison (q : Nat)
  | copyEntry (q : Nat)
  | jumpEntry (q : Nat)
  | callEntry (q : Nat)
  | returnEntry (q : Nat)
  | skipif (q : Nat)
  | fenceEntry (q : Nat)
  | debugHalt (q : Nat)
  | debugRead (q : Nat)
  | debugWrite (q : Nat)
  | debugSetbp (q : Nat)
  | debugClrbp (q : Nat)
  | debugResume (q : Nat)
  | completionRecord (q : Nat)
  | hostMemoryAccess (addr : Nat) (wr : Bool) (data : List Byte)
  | expanderLinkDown (port : Nat)
  | partFailure (p : Part)
  | heartbeat (link : Nat)
  | flitResend (link : Nat)
  | linkDown (link : Nat)
  | linkRetrain (link : Nat)
  | packetExpiry (n : Nat)
  | pktWrite (p : Packet)
  | pktMwrite (p : Packet)
  | pktRead (p : Packet)
  | pktRdata (p : Packet)
  | pktAtom (p : Packet)
  | pktAdata (p : Packet)
  | pktFlag (p : Packet)
  | pktMflag (p : Packet)
  | pktOpen (p : Packet)
  | pktOpenr (p : Packet)
  | pktShort (p : Packet)
  | pktRefuse (p : Packet)
  | pktReport (p : Packet)
  | pktBusy (p : Packet)
  | flagResend (n : Nat)
  | holdTimeout (die : Fin 4) (ix : Nat)
  | shortResend (die : Fin 4) (ix : Nat)
  | reportTimeout (n : Nat)
  | groupDecision (p : Packet)
  | groupReportTimeout (n : Nat)
  | replayLogRetire (die : Fin 4)
  | fabricReadResend (core slot id : Nat)
  | atomicTimeout (core slot id : Nat)
  | redputPacket (p : Packet)
  | redres (p : Packet)
  | reductionTimeout (n : Nat)
  | reductionSlotFree (n : Nat)
  | silent (p : Packet)
  | pktDead (p : Packet)
  | sweepStart (cluster : Nat) (h : Fin 16)
  | bandVisit (cluster : Nat)
  | idleWake (cluster : Nat) (h : Fin 16)
  | engineSwitch (cluster : Nat) (h : Fin 16)
  | coldReset (b : BringUp)
  | warmReset
  | clusterReset (cluster : Nat) (selfTestPassed : Bool)
  | coreReset (core : Nat)
  | imageUpload (im : FwImage)
  | attestationRequest (nonce : BitVec 384)
  | encodingFault
  | fetchFault (uncorrectable : Bool)
  | unassignedPacketType (p : Packet)
  | warmResetComplete
  deriving DecidableEq, Repr

/-- One slot of a pair: its predicate (R45) and its instruction. -/
structure SlotInstr where
  pi : PIx
  pn : Bool
  ins : Instr
  deriving DecidableEq, Repr

/-- A decoded pair (R41 to R43): the settle marker and the two slots. -/
structure Pair where
  settle : Bool
  c : SlotInstr
  a : SlotInstr
  deriving DecidableEq, Repr

end Sys2Proof
end

