-- ==== Sys2Proof/Machine/Float.lean ====
section
/-! DEFINITION. Floating-point formats, rounding, conversions and plane blocks (04, R77 to R93).
A code is the natural number of a value's bit pattern; arithmetic is exact on integers and rounded once at the end. -/

namespace Sys2Proof.Machine

/-- Which codes of a format are special (R77). -/
inductive FKind | ieee | noSignal | e4m3 | e2m1
  deriving DecidableEq, Repr

/-- A floating-point format (R77). -/
structure Fmt where
  eb : Nat
  mb : Nat
  bias : Nat
  kind : FKind
  deriving DecidableEq, Repr

namespace Fmt
def fp32 : Fmt := ⟨8, 23, 127, .ieee⟩
def fp16 : Fmt := ⟨5, 10, 15, .ieee⟩
def bf16 : Fmt := ⟨8, 7, 127, .ieee⟩
def e5m2 : Fmt := ⟨5, 2, 15, .noSignal⟩
def e4m3 : Fmt := ⟨4, 3, 7, .e4m3⟩
def e2m1 : Fmt := ⟨2, 1, 1, .e2m1⟩

/-- The sign bit's weight. -/
def signW (f : Fmt) : Nat := 2 ^ (f.eb + f.mb)
/-- The code of +infinity in a format that has one. -/
def infCode (f : Fmt) : Nat := (2 ^ f.eb - 1) * 2 ^ f.mb
/-- The code of the largest finite value (R77). -/
def maxCode (f : Fmt) : Nat := match f.kind with
  | .ieee | .noSignal => f.infCode - 1
  | .e4m3 => 0x7E
  | .e2m1 => 0x7
/-- The canonical NaN (R77); E2M1 has none. -/
def canonNan (f : Fmt) : Nat := match f.kind with
  | .ieee | .noSignal => f.infCode + 2 ^ (f.mb - 1)
  | .e4m3 => 0x7F
  | .e2m1 => 0
/-- FTZ acts on FP32, FP16 and BF16 alone (R85). -/
def ftzable (f : Fmt) : Bool := f.kind == .ieee
/-- A code with a sign. -/
def withSign (f : Fmt) (s : Bool) (c : Nat) : Nat := if s then f.signW + c else c
end Fmt

/-- The format of an AF instruction (R55). -/
def fmtOf : FFmt → Fmt
  | .f32 => .fp32
  | .f16 => .fp16
  | .bf16 => .bf16

/-- A decoded value: a finite one is (−1)^s × m × 2^e. -/
inductive FVal
  | nan (signalling : Bool)
  | inf (s : Bool)
  | fin (s : Bool) (m : Nat) (e : Int)
  deriving DecidableEq, Repr

/-- Sign of a code. -/
def codeSign (f : Fmt) (c : Nat) : Bool := c / f.signW % 2 == 1
/-- Magnitude bits of a code. -/
def codeMag (f : Fmt) (c : Nat) : Nat := c % f.signW

/-- The value of a code (R77), without FTZ. -/
def decodeF (f : Fmt) (c : Nat) : FVal :=
  let s := codeSign f c
  let e := codeMag f c / 2 ^ f.mb
  let m := c % 2 ^ f.mb
  let finite : FVal :=
    if e = 0 then .fin s m (1 - f.bias - f.mb) else .fin s (m + 2 ^ f.mb) (e - f.bias - f.mb)
  match f.kind with
  | .ieee | .noSignal =>
    if e = 2 ^ f.eb - 1 then (if m = 0 then .inf s else .nan (f.kind == .ieee && m < 2 ^ (f.mb - 1))) else finite
  | .e4m3 => if codeMag f c = 0x7F then .nan false else finite
  | .e2m1 => finite

/-- The code as an operation reads it: a subnormal is a zero of its sign under FTZ (R85). -/
def readCode (f : Fmt) (r : Rnd) (c : Nat) : Nat :=
  if r.ftz && f.ftzable && codeMag f c < 2 ^ f.mb then f.withSign (codeSign f c) 0 else c

/-- The value as an operation reads it. -/
def readF (f : Fmt) (r : Rnd) (c : Nat) : FVal := decodeF f (readCode f r c)

/-- `m × 2^e` (plus a sticky part below one unit) to a whole multiple of `2^q`, under the rounding mode (R83):
the multiple and whether it is inexact. -/
def roundAt (mode : RMode) (neg : Bool) (m : Nat) (e : Int) (sticky : Bool) (q : Int) : Nat × Bool :=
  if q ≤ e then
    let n := m * 2 ^ (e - q).toNat
    let up := match mode with | .rdn => neg | .rup => !neg | _ => false
    (if sticky && up then n + 1 else n, sticky)
  else
    let sh := (q - e).toNat
    let n := m / 2 ^ sh
    let r := m % 2 ^ sh
    let half := 2 ^ (sh - 1)
    let inexact := r != 0 || sticky
    let up := match mode with
      | .rne => r > half || (r == half && (sticky || n % 2 == 1))
      | .rtz => false
      | .rdn => neg && inexact
      | .rup => !neg && inexact
    (if up then n + 1 else n, inexact)

/-- The result of an overflow (R84); a NaN is canonical under NANCANON (R86). -/
def overflowF (f : Fmt) (r : Rnd) (neg : Bool) : Nat × Flags :=
  let base := Flag.of ||| Flag.nx
  let toMax := match r.mode with | .rne => false | .rtz => true | .rdn => !neg | .rup => neg
  let max := f.withSign neg f.maxCode
  match f.kind with
  | .e2m1 => (max, base ||| Flag.satur)
  | .e4m3 => if toMax then (max, base)
    else if r.sat then (max, base ||| Flag.satur) else (if r.nanCanon then f.canonNan else f.withSign neg f.canonNan, base)
  | _ => if toMax then (max, base)
    else if r.sat then (max, base ||| Flag.satur) else (f.withSign neg f.infCode, base)

/-- A nonzero exact value rounded once to a format (R83 to R85). -/
def roundF (f : Fmt) (r : Rnd) (neg : Bool) (m : Nat) (e : Int) (sticky : Bool) : Nat × Flags :=
  let top : Int := e + m.log2
  let q : Int := top - f.mb
  let (n, inexact) := roundAt r.mode neg m e sticky q
  let top' : Int := if n ≥ 2 ^ (f.mb + 1) then top + 1 else top
  let n' := if n ≥ 2 ^ (f.mb + 1) then n / 2 else n
  let emin : Int := 1 - f.bias
  if top' < emin then
    if r.ftz && f.ftzable then (f.withSign neg 0, Flag.uf ||| Flag.nx)
    else
      let (k, ix) := roundAt r.mode neg m e sticky (emin - f.mb)
      (f.withSign neg k, flagIf ix (Flag.uf ||| Flag.nx))
  else
    let code := (top' + f.bias).toNat * 2 ^ f.mb + (n' - 2 ^ f.mb)
    if code > f.maxCode then overflowF f r neg else (f.withSign neg code, flagIf inexact Flag.nx)

/-- The quiet NaN that an operation returns for a NaN operand (R86). -/
def quiet (f : Fmt) (r : Rnd) (c : Nat) : Nat :=
  if r.nanCanon then f.canonNan
  else if c / 2 ^ (f.mb - 1) % 2 == 1 then c else c + 2 ^ (f.mb - 1)

/-- Is the code a NaN? -/
def isNanC (f : Fmt) (c : Nat) : Bool := match decodeF f c with | .nan _ => true | _ => false
/-- Is the code a signalling NaN? -/
def isSigC (f : Fmt) (c : Nat) : Bool := match decodeF f c with | .nan s => s | _ => false

/-- The NaN result of an operation on the listed operands, if any is a NaN: the first one in operand order (R86). -/
def nanOf (f : Fmt) (r : Rnd) (ops : List Nat) : Option (Nat × Flags) :=
  match ops.find? (isNanC f) with
  | some c => some (quiet f r c, flagIf (ops.any (isSigC f)) Flag.nv)
  | none => none

/-- The canonical NaN of an invalid operation (R86). -/
def invalidF (f : Fmt) : Nat × Flags := (f.canonNan, Flag.nv)

/-- The sign of an exact zero sum (R109). -/
def zeroSumSign (r : Rnd) (sa sb : Bool) (bothZero : Bool) : Bool :=
  if bothZero && sa == sb then sa else r.mode == .rdn

/-- The signed integer of a finite value at a common exponent. -/
def atExp (s : Bool) (m : Nat) (e q : Int) : Int := (if s then -1 else 1) * (m * 2 ^ (e - q).toNat : Nat)

/-- The sum of two finite values, rounded once. -/
def sumFin (f : Fmt) (r : Rnd) (sa : Bool) (ma : Nat) (ea : Int) (sb : Bool) (mb : Nat) (eb : Int) : Nat × Flags :=
  let q := if ea ≤ eb then ea else eb
  let x := atExp sa ma ea q + atExp sb mb eb q
  if x = 0 then (f.withSign (zeroSumSign r sa sb (ma == 0 && mb == 0)) 0, 0)
  else roundF f r (x < 0) x.natAbs q false

/-- a + b (R109). -/
def addF (f : Fmt) (r : Rnd) (a b : Nat) : Nat × Flags :=
  match nanOf f r [a, b] with
  | some x => x
  | none => match readF f r a, readF f r b with
    | .inf sa, .inf sb => if sa == sb then (f.withSign sa f.infCode, 0) else invalidF f
    | .inf sa, _ => (f.withSign sa f.infCode, 0)
    | _, .inf sb => (f.withSign sb f.infCode, 0)
    | .fin sa ma ea, .fin sb mb eb => sumFin f r sa ma ea sb mb eb
    | _, _ => invalidF f

/-- A code with its sign inverted. -/
def negC (f : Fmt) (c : Nat) : Nat := f.withSign (!codeSign f c) (codeMag f c)

/-- a − b (R109): the NaN of b keeps its own sign. -/
def subF (f : Fmt) (r : Rnd) (a b : Nat) : Nat × Flags :=
  match nanOf f r [a, b] with
  | some x => x
  | none => addF f r a (negC f b)

/-- a × b (R109). -/
def mulF (f : Fmt) (r : Rnd) (a b : Nat) : Nat × Flags :=
  match nanOf f r [a, b] with
  | some x => x
  | none =>
    let s := codeSign f a != codeSign f b
    match readF f r a, readF f r b with
    | .inf _, .inf _ => (f.withSign s f.infCode, 0)
    | .inf _, .fin _ m _ | .fin _ m _, .inf _ => if m = 0 then invalidF f else (f.withSign s f.infCode, 0)
    | .fin _ ma ea, .fin _ mb eb =>
      if ma = 0 ∨ mb = 0 then (f.withSign s 0, 0) else roundF f r s (ma * mb) (ea + eb) false
    | _, _ => invalidF f

/-- The quotient of two finite nonzero values, rounded once. -/
def quotF (f : Fmt) (r : Rnd) (s : Bool) (ma : Nat) (ea : Int) (mb : Nat) (eb : Int) : Nat × Flags :=
  let n := ma * 2 ^ 80
  roundF f r s (n / mb) (ea - eb - 80) (n % mb != 0)

/-- a / b (R109). -/
def divF (f : Fmt) (r : Rnd) (a b : Nat) : Nat × Flags :=
  match nanOf f r [a, b] with
  | some x => x
  | none =>
    let s := codeSign f a != codeSign f b
    match readF f r a, readF f r b with
    | .inf _, .inf _ => invalidF f
    | .inf _, _ => (f.withSign s f.infCode, 0)
    | _, .inf _ => (f.withSign s 0, 0)
    | .fin _ ma ea, .fin _ mb eb =>
      if mb = 0 then (if ma = 0 then invalidF f else (f.withSign s f.infCode, Flag.dz))
      else if ma = 0 then (f.withSign s 0, 0) else quotF f r s ma ea mb eb
    | _, _ => invalidF f

/-- The integer square root, bit by bit from bit `k`: the largest x with x² ≤ n, given `x` so far. -/
def isqrtFrom (n : Nat) : Nat → Nat → Nat
  | 0, x => if (x + 1) * (x + 1) ≤ n then x + 1 else x
  | k + 1, x => isqrtFrom n k (if (x + 2 ^ (k + 1)) * (x + 2 ^ (k + 1)) ≤ n then x + 2 ^ (k + 1) else x)

/-- The integer square root. -/
def isqrt (n : Nat) : Nat := isqrtFrom n (n.log2 / 2 + 1) 0

/-- √a (R109). -/
def sqrtF (f : Fmt) (r : Rnd) (a : Nat) : Nat × Flags :=
  match nanOf f r [a] with
  | some x => x
  | none => match readF f r a with
    | .inf s => if s then invalidF f else (f.infCode, 0)
    | .fin s m e =>
      if m = 0 then (f.withSign s 0, 0)
      else if s then invalidF f
      else
        let odd : Nat := (e % 2).toNat
        let n := m * 2 ^ (odd + 80)
        let x := isqrt n
        roundF f r false x ((e - odd) / 2 - 40) (x * x != n)
    | .nan _ => invalidF f

/-- ±(a × b) ± c, rounded once (R113): `np` negates the product, `na` the addend. An invalid product wins over a quiet
NaN addend. -/
def fmaF (f : Fmt) (r : Rnd) (np na : Bool) (a b c : Nat) : Nat × Flags :=
  let va := readF f r a
  let vb := readF f r b
  let badProduct := match va, vb with
    | .inf _, .fin _ m _ | .fin _ m _, .inf _ => m == 0
    | _, _ => false
  if badProduct then invalidF f
  else match nanOf f r [a, b, c] with
  | some x => x
  | none =>
    let sp := (codeSign f a != codeSign f b) != np
    let sc := codeSign f c != na
    match va, vb, readF f r c with
    | .fin _ ma ea, .fin _ mb eb, .fin _ mc ec => sumFin f r sp (ma * mb) (ea + eb) sc mc ec
    | .fin _ _ _, .fin _ _ _, .inf _ => (f.withSign sc f.infCode, 0)
    | _, _, .inf _ => if sp == sc then (f.withSign sp f.infCode, 0) else invalidF f
    | _, _, _ => (f.withSign sp f.infCode, 0)

/-- The order of codes that are not NaN, with −0 below +0 (R110). -/
def orderKey (f : Fmt) (c : Nat) : Int := if codeSign f c then -(codeMag f c : Int) - 1 else codeMag f c

/-- FMIN (`mx` false) and FMAX (`mx` true) (R110, R86). -/
def minMaxF (f : Fmt) (r : Rnd) (mx : Bool) (a b : Nat) : Nat × Flags :=
  let a' := readCode f r a
  let b' := readCode f r b
  if isSigC f a || isSigC f b || (isNanC f a && isNanC f b) then (nanOf f r [a, b]).getD (invalidF f)
  else if isNanC f a then (b', 0)
  else if isNanC f b then (a', 0)
  else if mx then (if orderKey f b' > orderKey f a' then (b', 0) else (a', 0))
  else (if orderKey f b' < orderKey f a' then (b', 0) else (a', 0))

/-- FSGN (R111). -/
def sgnF (f : Fmt) (m : SgnMode) (a b : Nat) : Nat :=
  let s := match m with
    | .cpy => codeSign f b
    | .neg => !codeSign f b
    | .xor => codeSign f a != codeSign f b
  f.withSign s (codeMag f a)

/-- FCLASS (R112): the number of the class bit. -/
def classF (f : Fmt) (c : Nat) : Nat :=
  let s := codeSign f c
  match decodeF f c with
  | .nan sig => if sig then 8 else 9
  | .inf _ => if s then 0 else 7
  | .fin _ m _ =>
    if m = 0 then (if s then 3 else 4)
    else if codeMag f c < 2 ^ f.mb then (if s then 2 else 5) else (if s then 1 else 6)

/-- The numeric order of codes that are not NaN, −0 equal to +0. -/
def numKey (f : Fmt) (c : Nat) : Int := if codeSign f c then -(codeMag f c : Int) else codeMag f c

/-- FCMP (R114): the truth of the condition and the flags. -/
def cmpF (f : Fmt) (r : Rnd) (k : FCond) (a b : Nat) : Bool × Flags :=
  let nan := isNanC f a || isNanC f b
  let sig := isSigC f a || isSigC f b
  let x := numKey f (readCode f r a)
  let y := numKey f (readCode f r b)
  match k with
  | .eq => (!nan && x == y, flagIf sig Flag.nv)
  | .lt => (!nan && decide (x < y), flagIf nan Flag.nv)
  | .le => (!nan && decide (x ≤ y), flagIf nan Flag.nv)
  | .un => (nan, flagIf sig Flag.nv)
  | .ne => (nan || x != y, flagIf sig Flag.nv)

/-! ### Conversions (R87, R88) -/

/-- A NaN code moved to another format, its sign kept (R87). -/
def convNan (src dst : Fmt) (r : Rnd) (c : Nat) : Nat × Flags :=
  let sig := flagIf (isSigC src c) Flag.nv
  match dst.kind with
  | .e2m1 => (0, Flag.nv)
  | .e4m3 | .noSignal => (if r.nanCanon then dst.canonNan else dst.withSign (codeSign src c) dst.canonNan, sig)
  | .ieee =>
    let pay := c % 2 ^ src.mb
    let pay' := if src.mb ≤ dst.mb then pay * 2 ^ (dst.mb - src.mb) else pay / 2 ^ (src.mb - dst.mb)
    let q := 2 ^ (dst.mb - 1)
    let pay'' := if pay' / q % 2 == 1 then pay' else pay' + q
    (if r.nanCanon then dst.canonNan else dst.withSign (codeSign src c) (dst.infCode + pay''), sig)

/-- A value moved from one floating-point format to another (R87). -/
def convF (src dst : Fmt) (r : Rnd) (c : Nat) : Nat × Flags :=
  match readF src r c with
  | .nan _ => convNan src dst r c
  | .inf s => match dst.kind with
    | .ieee | .noSignal => (dst.withSign s dst.infCode, 0)
    | .e4m3 => if r.sat then (dst.withSign s dst.maxCode, Flag.satur) else (if r.nanCanon then dst.canonNan else dst.withSign s dst.canonNan, Flag.nv)
    | .e2m1 => (dst.withSign s dst.maxCode, Flag.nv ||| Flag.satur)
  | .fin s m e => if m = 0 then (dst.withSign s 0, 0) else roundF dst r s m e false

/-- A floating-point value to an `n`-bit integer (R88). -/
def toIntF (f : Fmt) (r : Rnd) (n : Nat) (c : Nat) : Int × Flags :=
  let hi : Int := 2 ^ (n - 1) - 1
  let lo : Int := -(2 ^ (n - 1))
  let out := Flag.nv ||| Flag.satur
  match readF f r c with
  | .nan _ => (0, Flag.nv)
  | .inf s => (if s then lo else hi, out)
  | .fin s m e =>
    let (k, ix) := roundAt r.mode s m e false 0
    let x : Int := if s then -(k : Int) else k
    if x > hi then (hi, out) else if x < lo then (lo, out) else (x, flagIf ix Flag.nx)

/-- An integer to a floating-point format (R88). -/
def fromIntF (f : Fmt) (r : Rnd) (x : Int) : Nat × Flags :=
  if x = 0 then (0, 0) else roundF f r (x < 0) x.natAbs 0 false

/-! ### Scaling, reciprocal and power of two (R133, R135) -/

/-- The rounding control of VRCP and VEXP2: RNE whatever MODE holds (R135). -/
def rneOf (r : Rnd) : Rnd := { r with mode := .rne }

/-- a × 2^(scale − 127) with an E8M0 scale (R133). -/
def scaleF (r : Rnd) (a scale : Nat) : Nat × Flags :=
  let f := Fmt.fp32
  if scale = 0xFF then (f.canonNan, flagIf (isSigC f a) Flag.nv)
  else match nanOf f r [a] with
  | some x => x
  | none => match readF f r a with
    | .inf s => (f.withSign s f.infCode, 0)
    | .fin s m e => if m = 0 then (f.withSign s 0, 0) else roundF f r s m (e + scale - 127) false
    | .nan _ => invalidF f

/-- 1/x under RNE (R135). -/
def rcpF (r : Rnd) (a : Nat) : Nat × Flags :=
  let f := Fmt.fp32
  match nanOf f r [a] with
  | some x => x
  | none => match readF f r a with
    | .inf s => (f.withSign s 0, 0)
    | .fin s m e =>
      if m = 0 then (f.withSign s f.infCode, Flag.dz)
      else quotF f (rneOf r) s 1 0 m e
    | .nan _ => invalidF f

/-- The product, in fixed point with 192 fraction bits, of 2^(2^−i) over the bits i of a 160-bit fraction, from bit
`k` down; `c` is 2^(2^−i) for the bit at hand. -/
def exp2Frac (frac : Nat) : Nat → Nat → Nat → Nat
  | 0, _, acc => acc
  | k + 1, c, acc =>
    let c' := isqrt (c * 2 ^ 192)
    exp2Frac frac k c' (if frac / 2 ^ k % 2 == 1 then acc * c' / 2 ^ 192 else acc)

/-- 2^x under RNE (R135; log 12): a whole x gives an exact power; any other x is computed to 192 fraction bits, always
inexact. -/
def exp2F (r : Rnd) (a : Nat) : Nat × Flags :=
  let f := Fmt.fp32
  match nanOf f r [a] with
  | some x => x
  | none => match readF f r a with
    | .inf s => (if s then 0 else f.infCode, 0)
    | .nan _ => invalidF f
    | .fin s m e =>
      if m = 0 then (f.bias * 2 ^ f.mb, 0)
      else
        /- x × 2^160 as an integer; e is at least −149 -/
        let x : Int := (if s then -1 else 1) * (m * 2 ^ (e + 160).toNat : Nat)
        let n : Int := x / 2 ^ 160
        let frac : Nat := (x % 2 ^ 160).toNat
        let n' : Int := if n > 1000 then 1000 else if n < -1000 then -1000 else n
        if frac = 0 then roundF f (rneOf r) false 1 n' false
        else roundF f (rneOf r) false (exp2Frac frac 160 (2 * 2 ^ 192) (2 ^ 192)) (n' - 192) true

/-! ### Plane blocks (R89 to R91) -/

/-- floor(log2 (m × 2^e)) of a nonzero magnitude. -/
def floorLog2 (m : Nat) (e : Int) : Int := e + m.log2

/-- The plane count's integer for one value (R91): the rounded and clamped m_k and its flags. -/
def planeInt (p : Nat) (mode : RMode) (x : Int) (s : Bool) (m : Nat) (e : Int) : Int × Flags :=
  if p = 1 then (if s then -1 else 1, 0)
  else
    let q : Int := (x - 127) - ((p : Int) - 2)
    let (k, ix) := roundAt mode s m e false q
    let v : Int := if s then -(k : Int) else k
    let hi : Int := 2 ^ (p - 1) - 1
    let lo : Int := -(2 ^ (p - 1))
    if v > hi then (hi, Flag.satur ||| Flag.nx)
    else if v < lo then (lo, Flag.satur ||| Flag.nx)
    else (v, flagIf ix Flag.nx)

/-- Plane j of a block's integers (R90): bit k is bit j of m_k; for one plane, 1 stands for +1. -/
def planeWord (p : Nat) (ms : List Int) (j : Nat) : Nat :=
  (ms.zipIdx).foldl (fun acc mk =>
    let bit : Nat := if p = 1 then (if mk.1 = 1 then 1 else 0) else (mk.1 / 2 ^ j % 2).toNat
    acc + bit * 2 ^ mk.2) 0

/-- The words of a plane block, header first, from 32 source values and their E8M0 scale (R90, R91). -/
def planeBlock (p : Nat) (mode : RMode) (scale : Nat) (w : List FVal) : List Nat × Flags :=
  let bad := scale == 0xFF || w.any fun v => match v with | .fin _ _ _ => false | _ => true
  if bad then (((p - 1) * 2 ^ 8 + 0xFF) :: List.replicate p 0, Flag.nv)
  else
    let fins : List (Bool × Nat × Int) := w.map fun v => match v with
      | .fin s m e => (s, m, e + (scale : Int) - 127)
      | _ => (false, 0, 0)
    let tops := fins.filterMap fun v => if v.2.1 = 0 then none else some (floorLog2 v.2.1 v.2.2)
    let x0 : Int := match tops with
      | [] => 0
      | t :: ts => ts.foldl (fun a b => if b > a then b else a) t + 127
    let xf := flagIf (!tops.isEmpty && decide (x0 > 254)) Flag.satur
    let x : Int := if x0 > 254 then 254 else if x0 < 0 then 0 else x0
    let rs := fins.map fun v => planeInt p mode x v.1 v.2.1 v.2.2
    let ms := rs.map (·.1)
    (((p - 1) * 2 ^ 8 + x.toNat) :: (List.range p).map (planeWord p ms),
      rs.foldl (fun a b => a ||| b.2) xf)

/-- The integers of a stored block (R89): from its plane words. -/
def blockInts (p : Nat) (planes : List Nat) : List Int :=
  (List.range 32).map fun k =>
    if p = 1 then (if (planes.headD 0) / 2 ^ k % 2 == 1 then 1 else -1)
    else (planes.zipIdx).foldl (fun acc pj =>
      let b : Int := (pj.1 / 2 ^ k % 2 : Nat)
      if pj.2 + 1 = p then acc - b * 2 ^ pj.2 else acc + b * 2 ^ pj.2) 0

/-- One block as the matrix unit reads it: its exponent and its integers. -/
structure Block where
  x : Nat
  ms : List Int
  deriving DecidableEq, Repr

/-- The exact sum S_b of a block pair (R92). -/
def blockDot (a b : Block) : Int := (a.ms.zip b.ms).foldl (fun s p => s + p.1 * p.2) 0

/-- `t × 2^e` truncated toward zero to a multiple of 2^q: the multiple and whether it was changed (R92). -/
def truncAt (t : Int) (e q : Int) : Int × Bool :=
  if q ≤ e then (t * 2 ^ (e - q).toNat, false)
  else
    let d := 2 ^ (q - e).toNat
    let k : Int := if t < 0 then -((t.natAbs / d : Nat) : Int) else (t.natAbs / d : Nat)
    (k, t.natAbs % d != 0)

/-- One chunk of an MMA on one FP32 element (R92). -/
def chunkFP32 (pa pb : Nat) (r : Rnd) (c : Nat) (blocks : List (Block × Block)) : Nat × Flags :=
  let f := Fmt.fp32
  let nanBlock := blocks.any fun p => p.1.x == 0xFF || p.2.x == 0xFF
  let c' := readCode f r c
  if nanBlock || isNanC f c' then (f.canonNan, flagIf (isSigC f c') Flag.nv)
  else match decodeF f c' with
  | .inf _ => (c', 0)
  | .nan _ => (f.canonNan, 0)
  | .fin s m e =>
    let ts := blocks.filterMap fun p =>
      let d := blockDot p.1 p.2
      if d = 0 then none
      else some (d, ((p.1.x : Int) - 127 - ((pa : Int) - 2)) + ((p.2.x : Int) - 127 - ((pb : Int) - 2)))
    let terms : List (Int × Int) := if m = 0 then ts else ts ++ [(if s then -(m : Int) else m, e)]
    match terms with
    | [] => (c', 0)
    | t0 :: rest =>
      let l := rest.foldl (fun a t => let b := floorLog2 t.1.natAbs t.2; if b > a then b else a)
        (floorLog2 t0.1.natAbs t0.2)
      let q := l - 64
      let cut := terms.map fun t => truncAt t.1 t.2 q
      let sum := cut.foldl (fun a t => a + t.1) 0
      let nx := flagIf (cut.any (·.2)) Flag.nx
      if sum = 0 then (f.withSign (r.mode == .rdn) 0, nx)
      else
        let (v, fl) := roundF f r (sum < 0) sum.natAbs q false
        (v, fl ||| nx)

/-- One chunk of an MMAI on one INT32 element (R93). -/
def chunkInt32 (r : Rnd) (c : BitVec 32) (blocks : List (Block × Block)) : BitVec 32 × Flags :=
  narrowSigned 32 r.sat (blocks.foldl (fun s p => s + blockDot p.1 p.2) c.toInt)

end Sys2Proof.Machine
end

