-- ==== Sys2Proof/Config.lean ====
section
/-! DEFINITION. The free values: what the spec leaves open, as constants without a body. -/

namespace Sys2Proof.Config

/-- Element `k` of the contents a tile holds, inside its shape, after an operation met uncorrectable data
(R144, R174): the `n`-th free value (log 10). -/
opaque freeTile : Nat → Nat → BitVec 32

/-- The number of extra clk that step number `n` lasts: durations are not architectural (R401; log 3). -/
opaque stall : Nat → Nat

/-- Byte `k` of the identity key's signature over report number `n` (R396; log 14). -/
opaque signature : Nat → Nat → BitVec 8

/-- The device-virtual base of the private segment of a task: the spec does not say where it lies (R38; log 16). -/
opaque privateSegment : Nat → BitVec 64

/-- Which 4 KiB block of its die's stacked DRAM the context area of a task begins at: service firmware allocates it
(R341, R394; log 16). -/
opaque contextArea : Nat → Nat

/-- Which 256-byte block of stacked DRAM the `n`-th RCB that service firmware reserves for a LAUNCH fills (R334; log 16). -/
opaque rcbArea : Nat → Nat

/-- Does the fetch numbered by the clk and the core find its pair in the instruction cache, where a fetch under the same
root has left it (R319; log 35)? -/
opaque fetchHit : Nat → Nat → Bool

/-- The `n`-th free value of a register or field whose value the spec does not state (logs 15, 22). -/
opaque freeValue : Nat → BitVec 64

/-- The rank of the object that a WCOPEN in step number `n` names and has not opened, for the record of OBJ_OVERSUB: only the
handshake returns it (R223, R276; log 64). -/
opaque openRank : Nat → BitVec 32

/-- Byte `k` of a part of a context area, the `n`-th that the device writes: the spec does not lay out the task record, the image
and the tag table (R341; log 9). -/
opaque areaByte : Nat → Nat → BitVec 8

/-- Where the refresh clock of a die stands at cold reset, in ns (R30; log 3). -/
opaque refreshPhase : Nat → Nat

/-- How many clk the `n`-th access that met a refresh of its bank waited, below 1,600 (R307; log 3). -/
opaque refreshWait : Nat → Nat

/-- The die, the first GiB and the size in GiB of the HDM range, which service firmware reserves (R387, R389; log 33). -/
opaque hdmRange : Nat × Nat × Nat

/-- Which of the MSI-X vectors 1,024 to 1,039 reports an event of a kind: 0 containment, 1 a link death, 2 a thermal event
(R388; log 59). -/
opaque eventVector : Nat → Nat

/-- The bank of its channel in which a key of stacked DRAM lies (R310, R393; log 32). -/
opaque dramBank : Nat → Nat

/-- What a byte of a part that has failed holds after failure number `n` (R393; log 32). -/
opaque lostByte : Nat → Nat → BitVec 8

/-- By how many clk a matrix unit of a die above its power grant is slower, at each request (R397; log 77). -/
opaque throttle : Nat → Nat

/-- Does the byte at a key keep its value over a warm reset, where the spec does not say (R391; log 33)? -/
opaque survives : Nat → Bool

end Sys2Proof.Config
end

