-- ==== Sys2Proof/Machine/State.lean ====
section
/-! DEFINITION. The state of the device: what the spec gives it (chapters 01, 07, 09 to 13, 18 to 20, 23, 24), and the
few fields of the model's own, marked MODEL. All of it is plain data. A table that is sparse on the hardware is a list
of numbered entries in rising order of the number; an entry that is not listed holds its value at reset. -/

namespace Sys2Proof.Machine

/-- Why a run stops. -/
inductive Fault
  /-- Raised by no meaning: a fault of the Z4 is a next state (slot state 8, R276). Safe. -/
  | halted
  deriving DecidableEq, Repr

/-- Why an instruction has no meaning. -/
inductive Refusal
  /-- Raised by an arm of `exec` whose instruction has no meaning yet. Safe. -/
  | notModelled (mnemonic : String)
  deriving DecidableEq, Repr

/-- A sparse table: entries in rising order of their number. -/
abbrev Tab (α : Type) := List (Nat × α)

/-! ### Slots and their tasks -/

/-- The states of a slot (R11). -/
inductive SlotSt
  | empty | ready | issued | mem | reg | matrix | object | mailbox | faulted | tileLock | settle | shelving
  | preempting | ending
  deriving DecidableEq, Repr

/-- A g register with its presence bits and result tag (R12, R13). -/
structure GReg where
  val : Word
  f : Bool
  d : Bool
  tag : Option Nat
  deriving DecidableEq, Repr

/-- A v register with its presence bits and result tag (R12, R13). -/
structure VReg where
  val : VWord
  f : Bool
  d : Bool
  tag : Option Nat
  deriving DecidableEq, Repr

/-- An element in the FIFO of a port (R169): its value, the PC and the words of the pair that pushed it, and what a FENCE
before that pair holds it back from: accesses, and elements of write ports (R167). -/
structure Elem where
  val : Word
  pc : Word
  pair : Word
  held : List Nat
  heldPorts : List Nat
  /-- MODEL: its number among the elements of the thread, and those of earlier pairs that were still to be written when its
  pair issued (R154) -/
  id : Nat := 0
  before : List Nat := []
  deriving DecidableEq, Repr

/-- A bound stream port (R16, R168). `pos` counts elements popped or pushed, `moved` elements fetched or drained; `pc` and
`pair` name the pair that bound it. -/
structure Port where
  wr : Bool
  sx : Bool
  size : Nat
  base : Word
  stride : Word
  count : Nat
  pos : Nat
  moved : Nat
  fifo : List Elem
  halted : Bool
  pc : Word
  pair : Word
  /-- MODEL: the number of the binding, by which the ports of the two copies of an RDT task are paired (R380) -/
  no : Nat
  deriving DecidableEq, Repr

/-- Where an address has its home: a byte of the device's memories, or a peer's window (R5, R36). -/
inductive Home
  | mem (key : Nat)
  | fab (peer : BitVec 12) (off : BitVec 48)
  deriving DecidableEq, Repr

/-- The object an obligation or a wait names: a record in this device, a remote RELEASE object, or the object of a
group (R223). -/
inductive ObjRef
  | local_ (key : Nat)
  | remote (peer : BitVec 12) (off : BitVec 48)
  | group (g : BitVec 10) (off : BitVec 48)
  deriving DecidableEq, Repr

/-- An entry of the obligation registry (R186). -/
structure Obl where
  ref : ObjRef
  addr : Word
  ph : BitVec 32
  rank : BitVec 32
  ar : Nat
  m : Nat
  kind : BitVec 4
  deriving DecidableEq, Repr

/-- The operations of the atomics (R164). -/
inductive AtomK | add | and | or | xor | min | max | swp | cas | fadd
  deriving DecidableEq, Repr

/-- An atomic at its home (R164): width in bytes, signedness, operands, and the rounding of an AFADD. -/
structure AtomOp where
  k : AtomK
  w : Nat
  signed : Bool
  x : Word
  y : Word
  rnd : BitVec 5
  deriving DecidableEq, Repr

/-- What a pair asks a home before it is decided (R153, R187): the home of an object, an RCB or a task, the descriptor of
`n` bytes at a key, or `n` bytes of a peer's window (R210). -/
inductive Query
  | home
  | desc (key n : Nat)
  | peer (p : BitVec 12) (off : BitVec 48) (n : Nat)
  deriving DecidableEq, Repr

/-- What an outstanding operation of a thread does when it is performed (R153). The addresses are those that the program
gave, for a trap record (R276). -/
inductive AccOp
  | loadG (d : GIx) (n : Nat) (sx : Bool) (h : Home) (addr : Word)
  | loadV (d : VIx) (n : Nat) (els : List (Nat × Home)) (addrs : List Word)
  | store (n : Nat) (els : List (Home × Nat)) (wch : BitVec 16) (addrs : List Word)
  | atomic (d : GIx) (op : AtomOp) (h : Home) (addr : Word)
  | fill (core : Nat) (slot : Fin 16) (reg : GIx) (val : Word)
  | tile (req : Nat) (ld : Bool)
  | matrix (req : Nat)
  | reduce (d : GIx) (rtag : BitVec 16) (grp : Nat)
  | wcopen (d : GIx) (handle : BitVec 12) (select : Bool) (addr : Word)
  | mcst (wch : BitVec 16) (off : BitVec 48) (key size : Nat) (addr : Word)
  | send (msg : Nat)
  | migrate (core : Nat)
  /-- a home that a plain access has asked, and whose answer decides on its pair (R153, R187) -/
  | ask (q : Query)
  deriving DecidableEq, Repr

/-- An outstanding operation (R153): its result tag, the PC and words of its pair, whether the slot is parked until it
completes, and the resends so far (R161). -/
structure Access where
  id : Nat
  pc : Word
  pair : Word
  op : AccOp
  park : Bool
  resends : Nat
  /-- its place in the load-value queue, for a leading copy (R380) -/
  lv : Option Nat
  /-- the number under which its packets were last sent (R161) -/
  rid : Nat
  /-- elements of a store performed so far (R156) -/
  done : Nat
  /-- the first of them that has failed: its cause and its address (R51) -/
  bad : Option (BitVec 8 × Word)
  /-- the element of a write port that its result becomes, without its value (R16) -/
  push : Option Elem := none
  deriving DecidableEq, Repr

/-- What a home that was asked has answered: the cause of a late fault, if it cannot give the data, and the words of a peer
(R153, R210). -/
structure Answer where
  err : Option (BitVec 8)
  words : List Word
  deriving DecidableEq, Repr

/-- An access in flight at a fault, for the dump (R378): its tag, the fields of its entry, and whether it is done. -/
structure InFlight where
  id : Nat
  addr : Word
  size : Nat
  atomic : Bool
  status : BitVec 8
  data : Nat
  old : Word
  deriving DecidableEq, Repr

/-- A trap record, or a late fault that waits to become one (R51, R276). -/
structure TrapRec where
  cause : BitVec 8
  late : Bool
  pc : Word
  addr : Word
  ranks : Word
  pair : Word
  /-- of a late fault: the accesses in flight when it was detected (R378) -/
  inflight : List InFlight := []
  deriving DecidableEq, Repr

/-- What a parked task waits for (R196 to R199, R215, R221). -/
inductive WaitOn
  | obj (key : Nat) (target : Word)
  | line (e : Fin 4) (target : Word)
  | mbox (tag mask : BitVec 16)
  deriving DecidableEq, Repr

/-- A wait in progress: its destination, whether it may shelve the task, and the PC of its pair (R197). -/
structure WaitRec where
  on : WaitOn
  dst : Option GIx
  sh : Bool
  pc : Word
  pair : Word
  deriving DecidableEq, Repr

/-- What a slot does once every outstanding result has returned (R43, R120, R121, R219). -/
inductive Cont
  | none
  | halt
  | haltSeat
  | trap (cause code : BitVec 8) (pc pair : Word)
  | migrate (core : Nat) (pc pair : Word)
  deriving DecidableEq, Repr

/-- How a task came to run (R202, R376). -/
inductive StartKind | launched | message | trapRecord | notice
  deriving DecidableEq, Repr

/-- The shape register of a tile (R25); LOCK is read from the queue of the matrix unit. -/
structure Shape where
  rows : BitVec 4
  cols : BitVec 4
  typ : BitVec 2
  cfg : Bool
  inuse : Bool
  dirty : Bool
  owner : BitVec 4
  deriving DecidableEq, Repr

/-- The 16 × 16 positions of a tile (R25). -/
abbrev TileData := Vector (Vector (BitVec 32) 16) 16

/-- One entry of the saved tile directory with its data block (R149). -/
structure SavedTile where
  held : Bool
  data : Option TileData
  shape : Shape
  deriving DecidableEq, Repr

/-- A task: everything its slot, its image and its context area hold for it (R12, R17, R32, R341). -/
structure Ctx where
  tid : BitVec 48
  rgn : BitVec 24
  rcb : Word
  mode : Bool
  g : Vector GReg 16
  v : Vector VReg 8
  pw : BitVec 16
  lm : Word
  rnd : BitVec 5
  cmask : BitVec 24
  sstat : Flags
  wch : BitVec 16
  ecxsel : BitVec 2
  elsel : BitVec 5
  pc : Word
  ports : Vector (Option Port) 4
  obls : List Obl
  accs : List Access
  /-- accesses that any later access waits for (FENCE, R167) -/
  holdAll : List Nat
  /-- accesses that later stores, atomics and commands wait for (FENCE, R167) -/
  holdRel : List Nat
  /-- elements of write ports that any later access, and that later stores, atomics and commands wait for (FENCE, R167) -/
  holdAllPorts : List Nat
  holdRelPorts : List Nat
  /-- g registers filled from outside the thread and not read since (R284) -/
  extern : BitVec 16
  /-- the answer of the home that the pair at the PC has asked (R153, R187) -/
  answered : Option Answer
  /-- the pair that parked the slot had S = 1, and its settle is still to come (R43) -/
  settleDue : Bool
  late : List TrapRec
  trap : Option TrapRec
  /-- the trap record has been delivered (R279) -/
  handled : Bool
  /-- the slot in which the task took its trap (R276) -/
  faultSlot : Fin 16
  /-- the accesses in flight when the fault was detected (R378) -/
  inflight : List InFlight
  wait : Option WaitRec
  cont : Cont
  bp : Vector Word 4
  bpSession : BitVec 8
  /-- the pair at this PC issues once without matching a breakpoint: the PC of the stop that a resume has ended (R280) -/
  bpSkip : Option Word
  bpStop : Bool
  /-- a debug HALT that waits to take effect: its queue and its entry (R385) -/
  dbgHalt : Option (Nat × Nat)
  pcnt0 : Nat
  pcnt1 : Nat
  privBase : Word
  privSize : BitVec 32
  saved : List SavedTile
  start : StartKind
  /-- the faulted task whose trap record started this one, and the number of its dump (R376) -/
  about : BitVec 48
  aboutNo : Nat
  /-- the device-physical base of its context area (R341) -/
  area : Nat
  args : List Word
  restarts : Nat
  dseq : Nat
  /-- the trailing copy of an RDT task (R378) -/
  trail : Bool
  /-- MODEL: values taken from outside sources, operands of matrix products taken, and stream ports bound so far (R380) -/
  rdtLoads : Nat
  rdtMmas : Nat
  binds : Nat
  /-- MODEL: elements that write ports have been given or await, which numbers them -/
  pushed : Nat
  /-- MODEL: pairs issued since the claim, by which the two copies of an RDT task are compared (R379) -/
  pairs : Nat
  deriving DecidableEq, Repr

/-- A slot: its state, the clk at which it entered it, the clk of its last issue, and its task. -/
structure Slot where
  st : SlotSt
  /-- the state before a pre-emption request (R343) -/
  was : SlotSt
  /-- ready for 240 clk without issuing (R342) -/
  urgent : Bool
  since : Nat
  lastIssue : Nat
  /-- the number of the claim, for the choice of R340 -/
  claimed : Nat
  ctx : Ctx
  /-- the sample latched at the last pulse: slot state code, PC and TID (R383) -/
  sample : Option (BitVec 4 × Word × BitVec 48)
  deriving DecidableEq, Repr

/-! ### Cores -/

/-- A request to the matrix unit (R137). -/
inductive MxOp
  | tcfg (td : TIx) (keep : Option (Shape × Shape))
  | tzero (td : TIx)
  | trel (td : TIx)
  | trowr (v : VIx) (td : TIx) (x : Fin 16)
  | troww (td : TIx) (x : Fin 16) (data : VWord)
  | tcolr (v : VIx) (td : TIx) (x : Fin 16)
  | tcolw (td : TIx) (x : Fin 16) (data : VWord)
  | ttrans (td ta : TIx)
  | mma (td : TIx) (a b : Nat)
  | mmai (td : TIx) (a b : Nat)
  | tld (td : TIx) (esz : Nat) (els : List (Option Home)) (addrs : List Word) (fill : BitVec 32)
  | tst (td : TIx) (esz : Nat) (els : List (Option Home)) (addrs : List Word)
  deriving DecidableEq, Repr

/-- A queued request, with the issuing slot's identity, the captured RND and MFMT, whether it has started, and for a
trailing copy the data that the leading copy's request read (R152, R380). -/
structure MxReq where
  id : Nat
  slot : Fin 16
  tid : BitVec 48
  pc : Word
  pair : Word
  op : MxOp
  rnd : BitVec 5
  mfmt : BitVec 15
  shape : Shape
  started : Bool
  data : Option (List Word)
  /-- the places of the pieces of memory that it has read or written so far (R145, R174), and the words read, in that order;
  a TST that has started has the words that it will write -/
  seen : List Nat
  got : List Word
  deriving DecidableEq, Repr

/-- What an engine operation does (R176, R212, R231). -/
inductive EngKind
  /-- with the words of a bounded source as read at issue -/
  | copy (w0 w1 w2 w3 : Word) (dpat : BitVec 29) (desc : List Word)
  | plane (dst src scale ctl : Word) (p : Nat) (rnd : BitVec 5)
  | io (w0 w1 w2 w3 : Word) (dpat : BitVec 29) (ns : NsEntry)
  deriving DecidableEq, Repr

/-- A piece of a transfer that is under way (R281, R289): the bytes or source codes read so far, none for one that is yet to be
read or that a peer is yet to send; for a plane block its words; and the places of the bytes still to be read here, or of the
words still to be written. -/
structure Piece where
  k : Nat
  got : List (Option Word)
  out : List Word
  todo : List Nat := []
  deriving DecidableEq, Repr

/-- A fabric read of an engine for bytes of a piece (R212, R161): their place in it and their number, the peer and the offset,
and the number under which it was last sent, with its resends. -/
structure EngAsk where
  k : Nat
  at_ : Nat
  len : Nat
  peer : BitVec 12
  off : BitVec 48
  rid : Nat
  resends : Nat
  deriving DecidableEq, Repr

/-- The progress of an engine operation or a COPY entry (R289, R329): pieces 0 to `pos` - 1 are done, and those of `past`
beyond it; bytes read, and bytes written. -/
structure Work where
  pos : Nat
  past : List Nat
  open_ : List Piece
  asks : List EngAsk
  read : Nat
  sent : Nat
  deriving DecidableEq, Repr

/-- An engine operation in flight (R209, R213). -/
structure EngOp where
  ecx : Fin 4
  n : Nat
  kind : EngKind
  slot : Fin 16
  tid : BitVec 48
  rcb : Word
  privBase : Word
  privSize : BitVec 32
  started : Bool
  work : Work
  /-- flags of the blocks of a TPLANE (R176) -/
  flags : Flags
  /-- a register fill waits at its target (R212) -/
  filling : Bool
  /-- what the storage device has returned: the data, and its status (R231) -/
  io : Option (List Byte × BitVec 16)
  deriving DecidableEq, Repr

/-- An engine context (R28): operations issued, those completed out of order, the timeline, the last 8 errors. -/
structure Ecx where
  issued : Nat
  done : List Nat
  line : Nat
  errs : List Word
  /-- mailbox entries of completed operations that TLINE does not cover yet (R213): the operation's number, the words, and
  whether the pending-post count holds the entry -/
  posts : List (Nat × Word × Word × Bool)
  deriving DecidableEq, Repr

/-- A message, trap record or orphan notice on its way to a slot (R217, R276, R202). -/
structure Msg where
  id : Nat
  kind : StartKind
  rcb : Word
  pc : Word
  payload : List Word
  /-- the task that sent it, where a SEND waits for the claim -/
  sender : Option (BitVec 48)
  /-- an obligation that a SEND carries, taken from the sender at the claim -/
  ob : Option ObjRef
  /-- entries that a notice passes to its task -/
  obls : List Obl
  /-- the core set is searched from here for a free slot (R276); a SEND goes to this core alone -/
  core : Nat
  fixed : Bool
  /-- the faulted task whose record this is, and the number of its dump -/
  about : BitVec 48
  aboutNo : Nat := 0
  /-- the seat of a lost task, which keeps its region's barrier owed until the notice has its slot (R207, R337) -/
  seats : List Obl := []
  deriving DecidableEq, Repr

/-- A saved task (R33, R340): whether it may be restored now, and since when, by number. -/
structure Image where
  ctx : Ctx
  /-- the state the slot had, restored with the image -/
  st : SlotSt
  ready : Bool
  seq : Nat
  deriving DecidableEq, Repr

/-- A task that waits for a slot as a kid packet (R340). -/
structure Kid where
  ctx : Ctx
  seq : Nat
  /-- a migrating task, whose old slot waits for the packet to be accepted -/
  migrating : Option (Nat × Fin 16)
  deriving DecidableEq, Repr

/-- A fill that waits at its target (R15, R177). -/
structure Fill where
  slot : Fin 16
  reg : GIx
  val : Word
  rcb : Word
  /-- the REGPUT that waits: core, slot and access -/
  src : Option (Nat × Fin 16 × Nat)
  /-- or the engine operation -/
  eng : Option (Fin 4 × Nat)
  deriving DecidableEq, Repr

/-- The schedule buffer (R232, R339). -/
structure Sched where
  rcb : Word
  list : List Word
  cursor : Nat
  deriving DecidableEq, Repr

/-- A pair with an outside effect in the store comparator of an RDT task (R381): the leading slot, the words that each
copy has brought (its cause of a fault or 0, the pair, the operand values), and whether the effect has been performed
and the trailing copy's pair is still to commit. -/
structure Compare where
  slot : Fin 16
  /-- the pairs that the leading copy had issued before it -/
  no : Nat
  lead : Option (List Word)
  trail : Option (List Word)
  ok : Bool
  deriving DecidableEq, Repr

/-- A pair in an instruction cache (R319): its root and virtual address, the words, and the code bounds that it was fetched
under. -/
structure Cached where
  root : Word
  va : Word
  word : Word
  lo : Word
  hi : Word
  deriving DecidableEq, Repr

/-- A core (01 per-core state, 10, 19, 23). -/
structure Core where
  slots : Vector Slot 16
  tiles : Vector TileData 8
  shapes : Vector Shape 8
  zero : Vector Bool 8
  mfmt : BitVec 15
  dpat : BitVec 29
  ecx : Vector Ecx 4
  mailbox : List (Word × Word)
  lost : Nat
  sealed : Bool
  pending : Nat
  engs : List EngOp
  mxq : List MxReq
  fills : List Fill
  runq : List Kid
  launches : List Kid
  images : List Image
  msgs : List Msg
  sched : Option Sched
  pcnt2 : Nat
  pcnt3 : Nat
  pcnt5 : Nat
  pcnt6 : Nat
  pcnt7 : Nat
  /-- the cluster's count of PCNT 4 at the core's last reset or PCNTCLR (R275) -/
  pcnt4At : Nat
  resetClk : Nat
  /-- the slot that last issued at each priority (R342) -/
  rr : Tab (Fin 16)
  contained : Bool
  /-- load values kept for trailing copies: leading slot, number of the load, value words (R380) -/
  lvq : List (Fin 16 × Nat × List Word)
  cmp : List Compare
  /-- CRC-32C of tiles that one copy of an RDT task has written and the other has not (R152): leading slot, whether the
  trailing copy wrote it, the leading copy's tile, the CRC, and the PC and words of the pair -/
  crcs : List (Fin 16 × Bool × TIx × BitVec 32 × Word × Word)
  /-- the core's copies of the four freeze bits (R308) -/
  frz : Vector Bool 4
  /-- local-store allocations: region, base, size (R37, R305) -/
  alloc : List (Word × Nat × Nat)
  /-- the instruction cache (R319) -/
  icache : List Cached
  /-- REDPUTs whose result has not been posted: the result tag of the packet, the mailbox tag and the group (R371) -/
  redputs : List (BitVec 16 × BitVec 16 × Nat)
  deriving DecidableEq, Repr

/-! ### Clusters: sweep engines and TLBs -/

/-- How a wait slot stands in a snapshot (R253). -/
inductive Snap | unbound | met | forced | unmet
  deriving DecidableEq, Repr

/-- A known band summary (R255); KNOWN = 0 is the absence of one. -/
structure Band where
  ready : Bool
  allDone : Bool
  sleep : BitVec 16
  elemw : Bool
  sww : Bool
  stamp : Nat
  deriving DecidableEq, Repr

/-- How an activation goes on after an instruction (R237). -/
inductive ActEnd | running | parked | retired | faulted
  deriving DecidableEq, Repr

/-- The registers of the activation that a sweep engine runs (R237), and the herd it belongs to. -/
structure Act where
  cluster : Nat
  entry : Fin 16
  i : Nat
  c : Vector (BitVec 32) 4
  f : Bool
  pc : Nat
  /-- the PC that the instruction at hand sets next -/
  next : Nat
  e : BitVec 32
  aux : BitVec 8
  flt : Bool
  wk : BitVec 2
  wts : BitVec 6
  warg : BitVec 8
  status : ActEnd
  deriving DecidableEq, Repr

/-- The visit of a band that is under way: the place in the band of its element, and the activation of that element, with the
instructions left of its budget and the word that its cell held (R237, R252). -/
structure Visit where
  k : Nat
  act : Option (Act × Nat × Nat)
  deriving DecidableEq, Repr

/-- An active run of a herd (R247, R257, R262). -/
structure Run where
  limit : Nat
  swept : Nat
  snap : Vector Snap 16
  /-- slots satisfied in the snapshot of the previous counted sweep (R256) -/
  base : BitVec 16
  /-- the band the sweep in progress visits next; none between sweeps -/
  cursor : Option Nat
  /-- the visit of that band, while it is under way (R262) -/
  at_ : Option Visit
  idle : Bool
  stop : Bool
  free : Bool
  bands : Tab Band
  /-- bands for which summary storage is held (R255) -/
  store : Nat
  wakes : List Nat
  /-- TLOBJ and the bound counter objects, on each of which the run holds an obligation (R247) -/
  tl : Option Nat
  counted : Vector (Option Nat) 4
  /-- the objects of the bound wait slots (R257) -/
  watched : Vector (Option Nat) 16
  /-- switched out by service firmware (R262) -/
  out : Bool
  /-- its obligations pass to the region's heir when it ends (R207, R259, R393) -/
  pass : Bool
  deriving DecidableEq, Repr

/-- A declared herd (R235, R236, R249): PLEN and BUDGET as the descriptor has them, the number of elements in a band
(R235) and of cells. -/
structure Herd where
  seq : BitVec 16
  rcb : Word
  cellBase : Word
  plen : Nat
  rnd : BitVec 5
  budget : Nat
  band : Nat
  count : Nat
  inBase : Word
  outBase : Word
  prog : List Instr
  tlobj : Word
  params : Vector (BitVec 32) 8
  counters : Vector (BitVec 32) 4
  slots : Vector (Option (Word × Word)) 16
  cobjs : Vector (Option Word) 4
  flags : Flags
  faults : Nat
  faulted : Bool
  sweeps : Nat
  g : Nat
  run : Option Run
  deriving DecidableEq, Repr

/-- A leaf translation in a TLB (R317). -/
structure TlbEntry where
  root : Word
  va : Nat
  size : Nat
  pa : Nat
  w : Bool
  x : Bool
  deriving DecidableEq, Repr

/-- A cluster (01, 07, 11, 12, 18). -/
structure Cluster where
  nomx : Bool
  padOwner : Option Word
  mxLast : Nat
  herds : Vector (Option Herd) 16
  seqs : Vector (BitVec 16) 16
  engLast : Fin 16
  tlb : List TlbEntry
  pcnt4 : Nat
  deriving DecidableEq, Repr

/-! ### Dies and the fabric -/

/-- A write channel in a send table (R222, R223). -/
structure Chan where
  tid : BitVec 48
  core : Nat
  failed : Bool
  group : Bool
  reliable : Bool
  /-- peer, or group number -/
  dest : BitVec 12
  off : BitVec 48
  ctr : BitVec 14
  gen : BitVec 4
  counted : BitVec 24
  unrel : Nat
  released : Nat
  rank : BitVec 32
  /-- peers whose answer to the OPEN has not come, and those that hold a counter -/
  opening : List (BitVec 12)
  opened : List (BitVec 12 × BitVec 14)
  /-- the task still holds the obligation of the channel (R223, R225, R226) -/
  owes : Bool
  /-- the late fault of a member's refusal of the OPEN -/
  declined : Option (BitVec 8)
  live : Bool
  /-- its task has ended during the handshake (R368) -/
  gone : Bool := false
  /-- MODEL: its number, by which it differs from one that had the handle or the counter before -/
  id : Nat := 0
  deriving DecidableEq, Repr

/-- A write or flag kept for a replay (R355): its channel, the packet, and whether its flag has left at the given clk. -/
structure Replay where
  chan : Nat
  pkt : Packet
  left : Option Nat
  deriving DecidableEq, Repr

/-- A flag held until it can be decided (R357): how the receiving gateway refused it, if it did (R353). -/
structure HeldFlag where
  pkt : Packet
  refused : Option (BitVec 8)
  deriving DecidableEq, Repr

/-- An arrival counter (R354 to R358). -/
structure Counter where
  peer : BitVec 12
  /-- the sender's channel handle, for a group, and whether the record of the sender and the handle names this counter
  (R370) -/
  handle : Option (BitVec 12)
  recorded : Bool
  obj : Nat
  reliable : Bool
  b : BitVec 24
  kn : Nat
  counts : List Nat
  marks : List (Option (BitVec 8))
  gen : BitVec 4
  /-- generation changes of the release at hand -/
  tries : Nat
  /-- clk at which its hold timer last started (R357, R358) -/
  since : Nat
  flags : List HeldFlag
  deriving DecidableEq, Repr

/-- The sample ring of a die (R383, R384). -/
structure Ring where
  base : Word
  seq : Nat
  off : Nat
  full : Bool
  deriving DecidableEq, Repr

/-- A die (01, 10, 18, 20, 23, 24). -/
structure Die where
  wsfrz : Bool
  chans : Tab Chan
  replay : List Replay
  counters : Tab Counter
  /-- clk at which a counter that was freed was freed (R295; log 75) -/
  freed : Tab Nat
  ring : Ring
  /-- refresh period of each layer in ms (R310) -/
  period : Vector Nat 8
  power : Nat
  corrected : Nat
  uncorrectable : Nat
  deriving DecidableEq, Repr

/-- A part of a peer's access that is performed at one instant (R281): `n` bytes at `key`, which stand at `place` in the payload;
and the `len` bytes from `line` on with which it shares protection units (R321). -/
structure ServePart where
  line : Nat
  len : Nat
  key : Nat
  place : Nat
  n : Nat
  deriving DecidableEq, Repr

/-- An access of a peer that is being performed at its home (R281, R356): its packet, the die and number of the counter of a
write, the parts that are left, the bytes read so far, and whether the home dropped a part of it. -/
structure Serve where
  pkt : Packet
  ctr : Option (Nat × Nat)
  todo : List ServePart
  got : List Byte
  bad : Bool
  deriving DecidableEq, Repr

/-- A reduction slot (R366, R367). -/
structure RedSlot where
  group : Nat
  tag : BitVec 16
  op : RedOp
  ign : Bool
  timeout : Nat
  present : BitVec 32
  nans : BitVec 32
  vals : Tab (BitVec 32)
  owed : Nat
  closed : Bool
  /-- clk of its first arrival, or of its close (R366, R367) -/
  since : Nat
  /-- contributors: member, peer, endpoint and result tag -/
  from_ : List (Nat × BitVec 12 × BitVec 11 × BitVec 16)
  deriving DecidableEq, Repr

/-- Outcomes of one release, merged (R227, R364). -/
structure Outcome3 where
  applied : Nat
  refused : Nat
  timedout : Nat
  first : Option (BitVec 12)
  reason : BitVec 8
  deriving DecidableEq, Repr

/-- Decisions of a group release being merged at a device of the tree (R364). -/
structure Merge where
  group : Nat
  handle : BitVec 12
  src : BitVec 12
  k : BitVec 48
  rtag : BitVec 16
  srcEp : BitVec 11
  out : Outcome3
  /-- branches that have reported, and whether this device's own decision is in -/
  seen : List (BitVec 12)
  own : Bool
  /-- clk at which the flag passed (R364) -/
  since : Nat
  deriving DecidableEq, Repr

/-- A settle report that a task has asked for (R227, R359). -/
structure ReportWait where
  core : Nat
  /-- the number of the channel -/
  chan : Nat
  handle : Nat
  k : BitVec 48
  tag : BitVec 16
  group : Bool
  dest : BitVec 12
  gen : BitVec 4
  ctr : BitVec 14
  /-- clk at which the flag left (R359) -/
  since : Nat
  deriving DecidableEq, Repr

/-! ### The hub: queues and regions -/

/-- An accepted entry whose record has not been written (R326, R331). -/
structure QEntry where
  id : Nat
  index : Nat
  tag : BitVec 16
  typ : BitVec 8
  /-- an entry of a called list, which gets no record (R328) -/
  listed : Bool
  /-- status, detail and time, once it has finished -/
  result : Option (BitVec 8 × Word × Word)
  /-- the RCB of a LAUNCH in progress -/
  launch : Option Word
  /-- a COPY in progress: source, destination, bytes, and how far it has come (R329) -/
  copy : Option (Word × Word × Nat × Work) := none
  deriving DecidableEq, Repr

/-- A queue: its table entry, notify registers and interpreter state (R324 to R328). -/
structure Queue where
  reg : QueueReg
  tail : Nat
  head : Nat
  done : Nat
  error : Bool
  bound : Bool
  /-- when its unserved entries were announced, for the choice of R327 -/
  since : Nat
  entries : List QEntry
  /-- the address of the next entry of the called list, then those to return to, innermost first -/
  calls : List Word
  obls : List Obl
  /-- the object and target of a parked WAITOBJ -/
  wait : Option (Nat × Word)
  skip : Nat
  /-- the entry that is accepted and does not act yet: a FENCE or a DEBUG entry that waits (R326, R329) -/
  held : Option (Nat × List Word)
  /-- record positions from DONE on that hold stop records (R345, R386) -/
  stops : Nat
  /-- RING and CPL of the registration that its state area belongs to (R327, R392; log 33) -/
  area : Word × Word
  deriving DecidableEq, Repr

/-- Who waits on an object (R193). -/
inductive WaitWho
  | task (tid : BitVec 48)
  | queue (q : Nat)
  deriving DecidableEq, Repr

/-- A waiter parked or shelved on an object (R193, R196). -/
structure Waiter where
  key : Nat
  target : Word
  who : WaitWho
  deriving DecidableEq, Repr

/-- A message of the hub to service firmware, root firmware or the host (R374, R386, R388, R396). -/
inductive Notice
  | contained (core : Nat)
  | linkDown (link : Nat)
  | thermal (die : Nat)
  | dead (peer : Nat)
  | msix (vector : Nat)
  /-- an attestation report (R396) -/
  | report (bytes : List Byte)
  | bootfail
  /-- a trap record or an orphan notice that no region takes (R202, R276) -/
  | trapToService (m : Msg)
  deriving DecidableEq, Repr

/-- What has been asked of the device while a warm reset runs (R391, R396). -/
inductive Held
  | tail (q : Nat) (v : BitVec 32)
  | error (q : Nat)
  | attest (nonce : BitVec 384)
  deriving DecidableEq, Repr

/-- Orphans that reached the root (R206). -/
structure Orphan where
  obl : Obl
  since : Nat
  deriving DecidableEq, Repr

/-- The fuses and the keys of firmware (R391, R395): the SHA-384 hash of the key of root firmware's images, the key by which root
firmware verifies service firmware, and the least SVN of each kind (log 14). -/
structure Fuses where
  rootHash : List Byte
  serviceKey : List Byte
  rootSvn : BitVec 16
  serviceSvn : BitVec 16
  deriving DecidableEq, Repr

/-- No keys, and SVN 0: the spec gives no values (DESIGN CHOICE, log 14). -/
def Fuses.init : Fuses := { rootHash := [], serviceKey := [], rootSvn := 0, serviceSvn := 0 }

/-- What has happened to memory that a part which failed held (R393; log 32): a part was lost, as failure number `n`, or bytes were
set to zero since. -/
inductive Loss
  | part (p : Part) (n : Nat)
  | zeroed (key n : Nat)
  deriving DecidableEq, Repr

/-- The hub and the device-wide registers (18, 19, 20, 24). -/
structure Hub where
  queues : Tab Queue
  namespaces : Tab NsEntry
  sessions : Tab Nat
  peers : Tab (PeerState × Bool)
  hold : Nat
  windows : Tab WinEntry
  groups : Tab GroupEntry
  /-- MODEL: the members of each group, which no field of an entry lists (R354; log 13) -/
  members : Tab (List (BitVec 12))
  dx : Nat
  dy : Nat
  dz : Nat
  peer : BitVec 12
  partition : BitVec 16
  links : Tab Bool
  silent : List (BitVec 12 × BitVec 12)
  reds : Tab RedSlot
  merges : List Merge
  reports : List ReportWait
  /-- flags answered BUSY, which are sent again after 10 µs (R357) -/
  busy : List Packet
  errlog : Nat
  sampctl : BitVec 8
  waiters : List Waiter
  orphans : List Orphan
  /-- RCBs of the active regions (R336) -/
  regions : List Word
  /-- what a launch header gives a region's tasks beside the RCB: RCB, ENTRY and RND (R31, R333) -/
  starts : List (Word × Word × BitVec 5)
  expanders : Tab (Nat × Bool)
  /-- MODEL: 64-byte lines of host memory whose reads the host completes with an error (R321; log 54) -/
  hostErrs : List Nat
  /-- MODEL: accesses of peers that are being performed -/
  serving : List Serve
  /-- parts that have failed (R393) -/
  lost : List Part
  /-- MODEL: what has happened to memory of parts that failed, latest first (log 32) -/
  losses : List Loss
  ready : Bool
  bootfail : Bool
  warm : Bool
  /-- clk of the last warm reset, which resets every core (R274, R391) -/
  warmClk : Nat
  held : List Held
  notices : List Notice
  /-- what the fuses and the flash hold, which every reset keeps (R391) -/
  fuses : Fuses
  /-- root firmware runs: its image has passed verification (R395, R399) -/
  rootRuns : Bool
  rootDigest : BitVec 384
  serviceDigest : BitVec 384
  rootSvn : BitVec 16
  serviceSvn : BitVec 16
  deriving DecidableEq, Repr

/-- MODEL: who acts next (log 2): a context-free event, the issue of a pair by a core, or a pair that has issued and is decided
on what a home has answered (R153, R187). -/
inductive Move
  | event (i : Instr)
  | issue (core : Nat)
  | decide (core : Nat) (slot : Fin 16)
  deriving DecidableEq, Repr

/-- The device. -/
structure State where
  /-- all memories, one list of bytes in rising order of the address; a byte that is not listed is 0 (log 1) -/
  mem : List Host.Cell
  /-- base addresses of the poisoned protection units (R321) -/
  poison : List Nat
  cores : Tab Core
  clusters : Tab Cluster
  dies : Tab Die
  hub : Hub
  /-- packets sent and not yet delivered (R349) -/
  net : List Packet
  /-- clk since cold reset (R274) -/
  clk : Nat
  /-- MODEL: the issuing core and slot -/
  core : Nat
  slot : Fin 16
  /-- MODEL: the words of the issuing pair, (A word << 32) | C word (R276) -/
  pair : Word
  /-- MODEL: ports that the issuing pair has popped (R169) -/
  popped : List (Fin 4)
  /-- MODEL: the running activation -/
  act : Act
  /-- MODEL: what moves next (log 2) -/
  agenda : List Move
  /-- MODEL: the core that issues when nothing is on the agenda (log 2) -/
  focus : Nat
  /-- MODEL: numbers result tags, messages and arrivals -/
  seq : Nat
  /-- MODEL: free values used (log 15) -/
  free : Nat
  /-- MODEL: steps made (log 3) -/
  ticks : Nat
  deriving DecidableEq, Repr

/-! ### Reset -/

/-- A register with no task (log 7). -/
def GReg.init : GReg := { val := 0, f := false, d := true, tag := none }
/-- A register with no task (log 7). -/
def VReg.init : VReg := { val := 0, f := false, d := true, tag := none }
/-- The shape of an unconfigured tile (R25). -/
def Shape.init : Shape :=
  { rows := 0, cols := 0, typ := 0, cfg := false, inuse := false, dirty := false, owner := 0 }
/-- A tile of zeros. -/
def TileData.zero : TileData := Vector.replicate 16 (Vector.replicate 16 0)
/-- No saved tile. -/
def SavedTile.init : SavedTile := { held := false, data := none, shape := Shape.init }

/-- The registers of an empty slot (R17; log 7). -/
def Ctx.init : Ctx :=
  { tid := 0, rgn := 0, rcb := 0, mode := false
    g := Vector.replicate 16 GReg.init, v := Vector.replicate 8 VReg.init
    pw := 1, lm := BitVec.allOnes 64, rnd := 0, cmask := 0, sstat := 0, wch := 0, ecxsel := 0, elsel := 0, pc := 0
    ports := Vector.replicate 4 none, obls := [], accs := [], holdAll := [], holdRel := [], holdAllPorts := []
    holdRelPorts := [], extern := 0, answered := none, settleDue := false, late := [], trap := none
    handled := false, faultSlot := 0, inflight := [], wait := none, cont := .none, bp := Vector.replicate 4 0, bpSession := 0, bpSkip := none
    bpStop := false, dbgHalt := none, pcnt0 := 0, pcnt1 := 0, privBase := 0, privSize := 0, saved := [], start := .launched, about := 0, aboutNo := 0, area := 0, args := []
    restarts := 0, dseq := 0, trail := false, rdtLoads := 0, rdtMmas := 0, binds := 0, pushed := 0, pairs := 0 }

/-- An empty slot. -/
def Slot.init : Slot := { st := .empty, was := .empty, urgent := false, since := 0, lastIssue := 0, claimed := 0, ctx := Ctx.init, sample := none }

/-- An engine context after reset (R28, R267). -/
def Ecx.init : Ecx := { issued := 0, done := [], line := 0, errs := [], posts := [] }

/-- A core after reset. -/
def Core.init : Core :=
  { slots := Vector.replicate 16 Slot.init, tiles := Vector.replicate 8 TileData.zero
    shapes := Vector.replicate 8 Shape.init, zero := Vector.replicate 8 true, mfmt := 0, dpat := 0
    ecx := Vector.replicate 4 Ecx.init, mailbox := [], lost := 0, sealed := false, pending := 0, engs := [], mxq := []
    fills := [], runq := [], launches := [], images := [], msgs := [], sched := none, pcnt2 := 0, pcnt3 := 0, pcnt5 := 0
    pcnt6 := 0, pcnt7 := 0, pcnt4At := 0, resetClk := 0, rr := [], contained := false, lvq := [], cmp := [], crcs := []
    frz := Vector.replicate 4 false, alloc := [], icache := [], redputs := [] }

/-- A cluster after reset (R137: core 0 first; R261: entry 0 first). -/
def Cluster.init : Cluster :=
  { nomx := false, padOwner := none, mxLast := 7, herds := Vector.replicate 16 none, seqs := Vector.replicate 16 0
    engLast := 15, tlb := [], pcnt4 := 0 }

/-- A die after reset. -/
def Die.init : Die :=
  { wsfrz := false, chans := [], replay := [], counters := [], freed := [], ring := { base := 0, seq := 0, off := 0, full := true }
    period := Vector.replicate 8 32, power := 0, corrected := 0, uncorrectable := 0 }

/-- A queue that is not registered. -/
def Queue.init : Queue :=
  { reg := { valid := false, ring := 0, log2n := 0, cpl := 0, owner := 0, prio := 0, qrcb := 0 }
    tail := 0, head := 0, done := 0, error := false, bound := false, since := 0, entries := [], calls := []
    obls := [], wait := none, skip := 0, held := none, stops := 0, area := (0, 0) }

/-- The hub after cold reset. -/
def Hub.init : Hub :=
  { queues := [], namespaces := [], sessions := [], peers := [], hold := 2, windows := [], groups := [], members := [], dx := 1, dy := 1
    dz := 1, peer := 0, partition := 0, links := [], silent := [], reds := [], merges := [], reports := [], busy := [], errlog := 0
    sampctl := 0, waiters := [], orphans := [], regions := [], starts := [], expanders := [], hostErrs := [], serving := [], lost := [], losses := [], ready := false, bootfail := false
    warm := false, warmClk := 0, held := [], notices := [], fuses := Fuses.init, rootRuns := false, rootDigest := 0, serviceDigest := 0, rootSvn := 0, serviceSvn := 0 }

/-- No activation. -/
def Act.init : Act :=
  { cluster := 0, entry := 0, i := 0, c := Vector.replicate 4 0, f := false, pc := 0, next := 0, e := 0, aux := 0
    flt := false, wk := 0, wts := 0, warg := 0, status := .retired }

/-- The device right after cold reset: no task, every table at its reset value, no byte of memory written
(R391, R399; logs 1, 7). -/
def State.reset : State :=
  { mem := [], poison := [], cores := [], clusters := [], dies := [], hub := Hub.init, net := [], clk := 0, core := 0
    slot := 0, pair := 0, popped := [], act := Act.init, agenda := [], focus := 0, seq := 0, free := 0, ticks := 0 }

end Sys2Proof.Machine
end

