-- ==== Sys2Proof/Machine/Ops.lean ====
section
/-! DEFINITION. The named operations that the meanings share: memory, tables, the place of the issuing task, regions,
translation and pointer checks, traps. -/

namespace Sys2Proof.Machine

/-! ### Sparse tables -/

/-- Entry `k`, if it is listed. -/
def tabGet {α : Type} : Tab α → Nat → Option α
  | [], _ => none
  | (j, a) :: t, k => if j = k then some a else tabGet t k

/-- Entry `k` set. -/
def tabPut {α : Type} : Tab α → Nat → α → Tab α
  | [], k, a => [(k, a)]
  | (j, b) :: t, k, a => if k < j then (k, a) :: (j, b) :: t else if k = j then (k, a) :: t else (j, b) :: tabPut t k a

/-- Entry `k` removed. -/
def tabDel {α : Type} (t : Tab α) (k : Nat) : Tab α := t.filter fun e => e.1 != k

/-- The lowest number below `n` that is not listed. -/
def tabFree {α : Type} (t : Tab α) (n : Nat) : Option Nat :=
  (List.range n).find? fun k => (tabGet t k).isNone

/-! ### Bytes of memory (log 1) -/

/-- The byte at an address; a byte that is not listed is 0 (log 1). -/
def memRead : List Host.Cell → Nat → Byte
  | [], _ => 0
  | (k, b) :: m, a => if k = a then b else memRead m a

/-- A byte written. Writing 0 removes the entry, so equal memories are equal lists. -/
def memWrite : List Host.Cell → Nat → Byte → List Host.Cell
  | [], a, b => if b = 0 then [] else [(a, b)]
  | (k, c) :: m, a, b =>
    if a < k then (if b = 0 then (k, c) :: m else (a, b) :: (k, c) :: m)
    else if a = k then (if b = 0 then m else (a, b) :: m)
    else (k, c) :: memWrite m a b

/-- The canonical form: addresses strictly rising, all at least `lo`, no byte 0. -/
def memWfFrom (lo : Nat) : List Host.Cell → Bool
  | [] => true
  | (k, b) :: m => decide (lo ≤ k) && b != 0 && memWfFrom (k + 1) m

/-- The canonical form of memory. -/
def memWf (m : List Host.Cell) : Bool := memWfFrom 0 m

/-- `n` bytes at an address, least significant first (R41, R156). -/
def memGet (m : List Host.Cell) (a : Nat) : Nat → Nat
  | 0 => 0
  | n + 1 => (memRead m a).toNat + 256 * memGet m (a + 1) n

/-- The low `n` bytes of a number stored, least significant first. -/
def memPut (m : List Host.Cell) (a : Nat) : Nat → Nat → List Host.Cell
  | 0, _ => m
  | n + 1, v => memPut (memWrite m a (BitVec.ofNat 8 v)) (a + 1) n (v / 256)

/-- The bytes of a number, least significant first. -/
def bytesLE (n v : Nat) : List Byte := (List.range n).map fun k => BitVec.ofNat 8 (v / 2 ^ (8 * k))

/-! ### The device address map (R302, R303, R39, R5) -/

/-- What lies at a memory key. A key is a device-physical address, or an aperture address without its tag. -/
inductive Space
  | dram (die : Nat) | weight (die : Nat) | second (port : Nat) | host | loc (core : Nat) | pad (cluster : Nat) | hole
  deriving DecidableEq, Repr

/-- The place of a key. -/
def spaceOf (key : Nat) : Space :=
  if 0xF0000000000000 ≤ key then
    .loc (key / 2 ^ 29 % 4 * 512 + key / 2 ^ 23 % 64 * 8 + key / 2 ^ 20 % 8)
  else if 0xE0000000000000 ≤ key then .pad (key / 2 ^ 29 % 4 * 64 + key / 2 ^ 23 % 64)
  else if 0x10000000000000 ≤ key then .hole
  else if 0x8000000000000 ≤ key then .host
  else if 0x100000000000 ≤ key then
    (if key < 0x300000000000 then .second ((key - 0x100000000000) / 2 ^ 42) else .hole)
  else if 0x8100000000 ≤ key then .hole
  else if 0x8000000000 ≤ key then .weight ((key - 0x8000000000) / 2 ^ 30)
  else .dram (key / 2 ^ 37)

/-- The key of byte 0 of a core's local store (R39): the device core number is die × 512 + cluster × 8 + core. -/
def localBase (core : Nat) : Nat :=
  0xF0000000000000 + core / 512 * 2 ^ 29 + core / 8 % 64 * 2 ^ 23 + core % 8 * 2 ^ 20

/-- The key of byte 0 of a cluster's plane scratchpad (R303): the number is die × 64 + cluster. -/
def padBase (cluster : Nat) : Nat := 0xE0000000000000 + cluster / 64 * 2 ^ 29 + cluster % 64 * 2 ^ 23

/-- The die of a core. -/
def dieOfCore (core : Nat) : Nat := core / 512
/-- The cluster of a core, numbered across the device. -/
def clusterOfCore (core : Nat) : Nat := core / 8

/-- Does the memory at a key lie on a part (R310, R393)? -/
def Part.holds (p : Part) (key : Nat) : Bool := match p, spaceOf key with
  | .core n, .loc c => c == n
  | .cluster n, .loc c => clusterOfCore c == n
  | .cluster n, .pad c => c == n
  | .die d, .dram e | .die d, .weight e => e == d
  | .die d, .loc c => dieOfCore c == d
  | .die d, .pad c => c / 64 == d
  | .bank d chan bank, .dram e => e == d && key / 2 ^ 8 % 64 == chan && Config.dramBank key == bank
  | _, _ => false

/-- The die whose log counts the errors of a unit (R323). -/
def dieOfKey (key : Nat) : Option Nat := match spaceOf key with
  | .dram d | .weight d => some d
  | .loc c => some (dieOfCore c)
  | .pad c => some (c / 64)
  | _ => none

/-- Size of a protection unit; host memory has none (R320, R321). -/
def unitSize : Space → Nat
  | .dram _ | .second _ => 64
  | .host | .hole => 0
  | _ => 8

/-- Does the home of a key lie in the issuer's instance of a scope (R4, R5)? -/
def inScope (core : Nat) (sc : Scope) : Home → Bool
  | .fab _ _ => sc == .fab
  | .mem key => match spaceOf key with
    | .loc c => match sc with
      | .core => c == core
      | .clu => clusterOfCore c == clusterOfCore core
      | .die => dieOfCore c == dieOfCore core
      | _ => true
    | .pad c => match sc with
      | .core => false
      | .clu => c == clusterOfCore core
      | .die => c / 64 == dieOfCore core
      | _ => true
    | .dram d | .weight d => match sc with
      | .core | .clu => false
      | .die => d == dieOfCore core
      | _ => true
    | _ => sc == .dev || sc == .fab

/-! ### Reads and writes of the device's memories, with poison (R321) -/

/-- The protection units that `n` bytes at a key touch. -/
def unitsOf (key n : Nat) : List Nat :=
  let u := unitSize (spaceOf key)
  if u = 0 then [] else (List.range ((key % u + n + u - 1) / u)).map fun i => key / u * u + i * u

/-- Is a unit that a read touches poisoned? -/
def State.poisoned (s : State) (key n : Nat) : Bool := (unitsOf key n).any fun u => s.poison.contains u

/-- What the failure of a part has made of a byte (R393; log 32): the byte that is read is the listed one with this one's bits
inverted, so it is free where the part held it, whatever is listed. -/
def lossAt : List Loss → Nat → Byte
  | [], _ => 0
  | .part p n :: l, k => if Part.holds p k then Config.lostByte n k else lossAt l k
  | .zeroed a n :: l, k => if decide (a ≤ k) && decide (k < a + n) then 0 else lossAt l k

/-- The same for `n` bytes. -/
def lossOf (l : List Loss) (a : Nat) : Nat → Nat
  | 0 => 0
  | n + 1 => (lossAt l a).toNat + 256 * lossOf l (a + 1) n

/-- What failures have made of `n` bytes at a key. -/
def State.loss (s : State) (key n : Nat) : Nat := if s.hub.losses.isEmpty then 0 else lossOf s.hub.losses key n

/-- One byte of the device's memories. -/
def State.byte (s : State) (key : Nat) : Byte := memRead s.mem key ^^^ lossAt s.hub.losses key

/-- `n` bytes at a key. -/
def State.load (s : State) (key n : Nat) : Nat := memGet s.mem key n ^^^ s.loss key n

/-- Memory with `n` bytes at a key written, so that they read as the low bytes of `v`. -/
def State.put (s : State) (key n v : Nat) : List Host.Cell := memPut s.mem key n (v ^^^ s.loss key n)

/-- A store of `n` bytes that covers part of a poisoned unit only is dropped (R321). -/
def State.dropsStore (s : State) (key n : Nat) : Bool :=
  (unitsOf key n).any fun u => s.poison.contains u && !(decide (key ≤ u) && decide (u + unitSize (spaceOf key) ≤ key + n))

/-- A store of `n` bytes: dropped on part of a poisoned unit, and clearing the poison of whole units (R321). -/
def State.store (s : State) (key n v : Nat) : State :=
  if s.dropsStore key n then s
  else { s with mem := s.put key n v, poison := s.poison.filter fun u => !(unitsOf key n).contains u }

/-- A part of a store of `len` bytes at `line` is performed by itself: `n` bytes at `key`. Where the whole would be dropped on part of
a poisoned unit, so is the part, and the last one clears the poison of the units that the whole covers (R156, R281, R321). -/
def State.storePart (s : State) (line len key n v : Nat) (last : Bool) : State :=
  if s.dropsStore line len then s
  else { s with mem := s.put key n v, poison := if last then s.poison.filter fun u => !(unitsOf line len).contains u else s.poison }

/-- A number from bytes, least significant first. -/
def ofBytes (l : List Byte) : Nat := l.foldr (fun b a => b.toNat + 256 * a) 0

/-- How many of `n` bytes from a key lie in its protection unit (R320). -/
def unitRoom (key n : Nat) : Nat := let u := unitSize (spaceOf key); if u = 0 then n else min n (u - key % u)

/-- Bytes stored in order, one protection unit after the other (R321). -/
def State.storeUnits (s : State) (key : Nat) (l : List Byte) : Nat → State
  | 0 => s
  | fuel + 1 =>
    let n := max 1 (unitRoom key l.length)
    if l.isEmpty then s else (s.store key n (ofBytes (l.take n))).storeUnits (key + n) (l.drop n) fuel
/-- Bytes stored in order (R321). -/
def State.storeBytes (s : State) (key : Nat) (l : List Byte) : State := s.storeUnits key l l.length

/-- The home marks the units of a failed read poisoned (R321). -/
def State.markPoison (s : State) (key n : Nat) : State :=
  { s with poison := (unitsOf key n).foldl (fun p u => if p.contains u then p else u :: p) s.poison }

/-! ### Where things stand -/

/-- A core of the device. -/
def State.coreAt (s : State) (n : Nat) : Core := (tabGet s.cores n).getD Core.init
/-- A core changed. -/
def State.modCore (s : State) (n : Nat) (f : Core → Core) : State :=
  { s with cores := tabPut s.cores n (f (s.coreAt n)) }
/-- A cluster of the device. -/
def State.clusterAt (s : State) (n : Nat) : Cluster := (tabGet s.clusters n).getD Cluster.init
/-- A cluster changed. -/
def State.modCluster (s : State) (n : Nat) (f : Cluster → Cluster) : State :=
  { s with clusters := tabPut s.clusters n (f (s.clusterAt n)) }
/-- A die of the device. -/
def State.dieAt (s : State) (n : Nat) : Die := (tabGet s.dies n).getD Die.init
/-- A die changed. -/
def State.modDie (s : State) (n : Nat) (f : Die → Die) : State := { s with dies := tabPut s.dies n (f (s.dieAt n)) }
/-- A unit poisoned in which an error has been found, and counted in the log of its die (R321, R323). -/
def State.poisonUnit (s : State) (u : Nat) : State :=
  let s1 := { s with poison := u :: s.poison }
  match dieOfKey u with
  | some d => s1.modDie d fun x => { x with uncorrectable := x.uncorrectable + 1 }
  | none => s1
/-- A read of `n` bytes finds an uncorrectable error: a unit that it touches is poisoned, if none is already (R321). Which
of several it is, is left open: a free value (log 54). -/
def State.foundError (s : State) (key n : Nat) : State :=
  if s.poisoned key n then s
  else match unitsOf key n with
    | [] => s
    | [u] => s.poisonUnit u
    | us => { s.poisonUnit (us.getD ((Config.freeValue s.free).toNat % us.length) 0) with free := s.free + 1 }
/-- The hub changed. -/
def State.modHub (s : State) (f : Hub → Hub) : State := { s with hub := f s.hub }
/-- A queue of the hub. -/
def State.queueAt (s : State) (q : Nat) : Queue := (tabGet s.hub.queues q).getD Queue.init
/-- A queue changed. -/
def State.modQueue (s : State) (q : Nat) (f : Queue → Queue) : State :=
  s.modHub fun h => { h with queues := tabPut h.queues q (f (s.queueAt q)) }

/-- A slot. -/
def State.slotAt (s : State) (n : Nat) (i : Fin 16) : Slot := (s.coreAt n).slots[i]
/-- A slot changed. -/
def State.modSlot (s : State) (n : Nat) (i : Fin 16) (f : Slot → Slot) : State :=
  s.modCore n fun c => { c with slots := c.slots.set i (f c.slots[i]) }
/-- The task of a slot. -/
def State.ctxAt (s : State) (n : Nat) (i : Fin 16) : Ctx := (s.slotAt n i).ctx
/-- The task of a slot changed. -/
def State.modCtxAt (s : State) (n : Nat) (i : Fin 16) (f : Ctx → Ctx) : State :=
  s.modSlot n i fun sl => { sl with ctx := f sl.ctx }

/-- The states of a slot that PCNT 1 counts (R275). -/
def SlotSt.counted : SlotSt → Bool
  | .mem | .reg | .matrix | .object | .mailbox | .tileLock | .settle => true
  | _ => false

/-- The code of a slot state (R11). -/
def SlotSt.code : SlotSt → BitVec 4
  | .empty => 0 | .ready => 1 | .issued => 2 | .mem => 3 | .reg => 4 | .matrix => 5 | .object => 6 | .mailbox => 7
  | .faulted => 8 | .tileLock => 9 | .settle => 10 | .shelving => 11 | .preempting => 12 | .ending => 13

/-- A slot enters a state; the clk it spent in a counted state go to PCNT 1 (R275). -/
def State.setSt (s : State) (n : Nat) (i : Fin 16) (st : SlotSt) : State :=
  s.modSlot n i fun sl => { sl with
    st := st, since := if sl.st = st then sl.since else s.clk, urgent := sl.urgent && sl.st == st
    ctx := if sl.st.counted && sl.st != st then { sl.ctx with pcnt1 := sl.ctx.pcnt1 + (s.clk - sl.since) } else sl.ctx }

/-- The issuing task. -/
def State.ctx (s : State) : Ctx := s.ctxAt s.core s.slot
/-- The issuing task changed. -/
def State.modCtx (s : State) (f : Ctx → Ctx) : State := s.modCtxAt s.core s.slot f
/-- The state of the issuing slot. -/
def State.st (s : State) : SlotSt := (s.slotAt s.core s.slot).st
/-- The issuing core. -/
def State.cur (s : State) : Core := s.coreAt s.core
/-- The issuing core changed. -/
def State.modCur (s : State) (f : Core → Core) : State := s.modCore s.core f
/-- The issuing slot enters a state. -/
def State.enter (s : State) (st : SlotSt) : State := s.setSt s.core s.slot st

/-- A fresh number for a tag, a message or an arrival. -/
def State.bump (s : State) : State := { s with seq := s.seq + 1 }

/-- Every living core number that has been written. -/
def State.coreNums (s : State) : List Nat := s.cores.map (·.1)

/-- All slot numbers. -/
def allSlots : List (Fin 16) := (List.range 16).map (Fin.ofNat 16)

/-- The place of the leading slot that holds a task. -/
def State.findTask (s : State) (tid : BitVec 48) : Option (Nat × Fin 16) :=
  s.cores.findSome? fun e =>
    (allSlots.find? fun i => e.2.slots[i].st != .empty && e.2.slots[i].ctx.tid == tid && !e.2.slots[i].ctx.trail).map
      fun i => (e.1, i)

/-- Device time in ns: the clk runs at 1.6 GHz (R3, R274; log 3). -/
def State.time (s : State) : Word := BitVec.ofNat 64 (s.clk * 5 / 8)

/-! ### Regions (R334) -/

/-- The 64-bit word of an RCB at an offset. -/
def State.rcbWord (s : State) (rcb : Word) (off : Nat) : Word := BitVec.ofNat 64 (s.load (rcb.toNat + off) 8)

/-- Bits of a word, as a number. -/
def bitsOf (w : Word) (hi lo : Nat) : Nat := w.toNat / 2 ^ lo % 2 ^ (hi + 1 - lo)

def State.rcbParent (s : State) (r : Word) : Word := s.rcbWord r 0
def State.rcbRgn (s : State) (r : Word) : Nat := bitsOf (s.rcbWord r 8) 23 0
def State.rcbPrio (s : State) (r : Word) : Nat := bitsOf (s.rcbWord r 8) 27 24
def State.rcbFlag (s : State) (r : Word) (k : Nat) : Bool := (s.rcbWord r 8).getLsbD (32 + k)
def State.usesMatrix (s : State) (r : Word) : Bool := s.rcbFlag r 0
def State.isRdt (s : State) (r : Word) : Bool := s.rcbFlag r 1
def State.restartable (s : State) (r : Word) : Bool := s.rcbFlag r 2
def State.privateShare (s : State) (r : Word) : Bool := s.rcbFlag r 3
def State.supv (s : State) (r : Word) : Bool := s.rcbFlag r 4
def State.preemptable (s : State) (r : Word) : Bool := s.rcbFlag r 5
/-- SLOTCAP, 1 to 16 in five bits (R334). -/
def State.slotCap (s : State) (r : Word) : Nat := bitsOf (s.rcbWord r 8) 44 40
def State.codeBase (s : State) (r : Word) : Word := s.rcbWord r 0x10
def State.codeEnd (s : State) (r : Word) : Word := s.rcbWord r 0x18
def State.ptRoot (s : State) (r : Word) : Word := s.rcbWord r 0x20
def State.mvt (s : State) (r : Word) : Word := s.rcbWord r 0x28
def State.mvtLen (s : State) (r : Word) : Nat := (s.rcbWord r 0x30).toNat
def State.trapVec (s : State) (r : Word) : Word := s.rcbWord r 0x38
def State.rwLo (s : State) (r : Word) : Nat := bitsOf (s.rcbWord r 0x40) 31 0
def State.rwHi (s : State) (r : Word) : Nat := bitsOf (s.rcbWord r 0x40) 63 32
def State.nextChild (s : State) (r : Word) : Nat := bitsOf (s.rcbWord r 0x48) 63 32
def State.dynTop (s : State) (r : Word) : Nat := bitsOf (s.rcbWord r 0x50) 31 0
def State.heirSel (s : State) (r : Word) : Bool := (s.rcbWord r 0x50).getLsbD 32
def State.firstCore (s : State) (r : Word) : Nat := bitsOf (s.rcbWord r 0x58) 10 0
def State.numCores (s : State) (r : Word) : Nat := bitsOf (s.rcbWord r 0x58) 27 16
def State.localSize (s : State) (r : Word) : Nat := bitsOf (s.rcbWord r 0x60) 31 0
def State.privateSize (s : State) (r : Word) : Nat := bitsOf (s.rcbWord r 0x60) 63 32
def State.owner (s : State) (r : Word) : Nat := bitsOf (s.rcbWord r 0x70) 47 16
/-- The completion barrier of a region (R334, R335). -/
def barrierOf (r : Word) : Nat := r.toNat + 0xC0

/-- Is a core in a region's core set (R332)? -/
def State.inCoreSet (s : State) (r : Word) (core : Nat) : Bool :=
  decide (s.firstCore r ≤ core) && decide (core < s.firstCore r + s.numCores r)

/-- Is region `r` the region `a` or a descendant of it? The tree has at most 64 levels here (log 17). -/
def State.descends (s : State) (a : Word) : Nat → Word → Bool
  | 0, r => r == a
  | n + 1, r => r == a || (s.rcbParent r != 0 && s.descends a n (s.rcbParent r))

/-- The RCB whose NEXTCHILD and DYNTOP a region uses: its own, or that of the region whose window it shares, which is
the nearest ancestor with a completion barrier of another rank (R185, R335). A shared window has the parent's bounds. -/
def State.windowOwner (s : State) : Nat → Word → Word
  | 0, r => r
  | n + 1, r => if s.rcbParent r != 0 && s.rwLo (s.rcbParent r) == s.rwLo r && s.rwHi (s.rcbParent r) == s.rwHi r
    then s.windowOwner n (s.rcbParent r) else r

/-! ### Causes (R278) -/

namespace Cause
def illegal : BitVec 8 := 0x01
def priv : BitVec 8 := 0x02
def fetchBound : BitVec 8 := 0x03
def addrTag : BitVec 8 := 0x04
def translation : BitVec 8 := 0x05
def protection : BitVec 8 := 0x06
def misalign : BitVec 8 := 0x07
def peerAbsent : BitVec 8 := 0x08
def peerPartition : BitVec 8 := 0x09
def channel : BitVec 8 := 0x0A
def peerDead : BitVec 8 := 0x0B
def obrank : BitVec 8 := 0x10
def noObligation : BitVec 8 := 0x11
def unownedWait : BitVec 8 := 0x12
def rankExhausted : BitVec 8 := 0x13
def objOversub : BitVec 8 := 0x14
def tileUnconfig : BitVec 8 := 0x18
def matrixAbsent : BitVec 8 := 0x1A
def format : BitVec 8 := 0x1B
def weightWrite : BitVec 8 := 0x20
def uncorrectable : BitVec 8 := 0x21
def redundancyMismatch : BitVec 8 := 0x22
def contextLost : BitVec 8 := 0x23
def breakpoint : BitVec 8 := 0x28
def trapi : BitVec 8 := 0x29
def syscall : BitVec 8 := 0x2A
def stream : BitVec 8 := 0x30
def migrateState : BitVec 8 := 0x31
def sweepBindRank : BitVec 8 := 0x38
end Cause

/-- The order of R277, highest first. -/
def causeOrder : List (BitVec 8) :=
  [Cause.illegal, Cause.priv, Cause.matrixAbsent, Cause.addrTag, Cause.translation, Cause.protection, Cause.misalign,
   Cause.peerAbsent, Cause.peerPartition, Cause.peerDead, Cause.channel, Cause.tileUnconfig, Cause.format, Cause.stream,
   Cause.migrateState, Cause.weightWrite, Cause.obrank, Cause.unownedWait, Cause.noObligation, Cause.rankExhausted,
   Cause.objOversub, Cause.sweepBindRank]

/-- The place of a cause in the order of R277. -/
def causeRank (c : BitVec 8) : Nat := (causeOrder.findIdx? (· == c)).getD causeOrder.length

/-- A fault found at issue: its cause, the failing address (g4) and the ranks (g5) of its record (R276). -/
structure Trap where
  cause : BitVec 8
  addr : Word
  ranks : Word
  deriving DecidableEq, Repr

/-- A fault that names no address (R296). -/
def Trap.plain (c : BitVec 8) : Trap := { cause := c, addr := 0, ranks := 0 }
/-- A fault of the causes 0x10 to 0x14: it carries the object's address, its rank and the task's MINRANK (R276). -/
def objTrap (c : BitVec 8) (p : Word) (rank minrank : Nat) : Trap :=
  { cause := c, addr := p, ranks := BitVec.ofNat 64 (rank % 2 ^ 32 * 2 ^ 32 + minrank % 2 ^ 32) }
/-- A fault at an address. -/
def Trap.at_ (c : BitVec 8) (a : Word) : Trap := { cause := c, addr := a, ranks := 0 }

/-! ### Translation (R314 to R317) -/

/-- What an access does to its page (R315, R316). -/
inductive AccKind | read | write | fetch
  deriving DecidableEq, Repr

/-- Does second-tier memory exist at a key (R302, R390)? -/
def State.secondExists (s : State) (key : Nat) : Bool := match spaceOf key with
  | .second p => match tabGet s.hub.expanders p with
    | some (cap, _) => decide (key - (0x100000000000 + p * 2 ^ 42) < cap)
    | none => false
  | _ => true

/-- May a leaf entry name this page (R302, R316)? -/
def State.pageOk (s : State) (pa size : Nat) : Bool :=
  decide (pa % size = 0) && spaceOf pa != .hole && s.secondExists pa && s.secondExists (pa + size - 1)

/-- May an entry name this table (R316): aligned to its size, in stacked DRAM? -/
def tableOk (pa size : Nat) : Bool :=
  decide (pa % size = 0) && (match spaceOf pa with | .dram _ => true | _ => false)

/-- The levels of R314: low index bit, number of index bits, and whether a leaf may or must stand here. -/
def levels : List (Nat × Nat × Bool × Bool) :=
  [(48, 8, false, false), (39, 9, false, false), (30, 9, true, false), (25, 5, true, false), (16, 9, true, true)]

/-- A leaf, as a TLB would hold it, or a cause (R316). -/
def State.walk (s : State) (root : Word) (va : Nat) : List (Nat × Nat × Bool × Bool) → Nat → Except (BitVec 8) TlbEntry
  | [], _ => .error Cause.translation
  | (lo, bits, may, must) :: rest, table =>
    let at_ := table + va / 2 ^ lo % 2 ^ bits * 8
    let e := s.load at_ 8
    let pa := e / 2 ^ 8 % 2 ^ 44 * 2 ^ 8
    let leaf := e / 2 % 2 == 1
    if s.poisoned at_ 8 then .error Cause.uncorrectable
    else if e % 2 = 0 ∨ e / 2 ^ 52 ≠ 0 ∨ e / 2 ^ 4 % 16 ≠ 0 ∨ (leaf && !may) = true ∨ (!leaf && must) = true then
      .error Cause.translation
    else if leaf then
      if s.pageOk pa (2 ^ lo) then
        .ok { root := root, va := va / 2 ^ lo * 2 ^ lo, size := 2 ^ lo, pa := pa, w := e / 4 % 2 == 1, x := e / 8 % 2 == 1 }
      else .error Cause.translation
    else match rest with
      | [] => .error Cause.translation
      | (lo', bits', may', must') :: rest' =>
        if tableOk pa (8 * 2 ^ bits') then s.walk root va ((lo', bits', may', must') :: rest') pa
        else .error Cause.translation

/-- The TLB entry that covers an address under a root. -/
def tlbFind (t : List TlbEntry) (root : Word) (va : Nat) : Option TlbEntry :=
  t.find? fun e => e.root == root && decide (e.va ≤ va) && decide (va < e.va + e.size)

/-- Does an address lie under the apertures, whose L0 entries are never read (R314)? -/
def underAperture (va : Nat) : Bool := decide (0xE ≤ va / 2 ^ 52 % 16)

/-- Translation of bits 55:0 under a root, by the cluster's TLB or a walk (R317, R318). An address under the apertures has no
translation (R314): a private segment that reached there would fault TRANSLATION (log 16). -/
def State.translate (s : State) (cluster : Nat) (root : Word) (va : Nat) (k : AccKind) : Except (BitVec 8) Nat :=
  let hit := if underAperture va then Except.error Cause.translation else match tlbFind (s.clusterAt cluster).tlb root va with
    | some e => Except.ok e
    | none => s.walk root va levels root.toNat
  match hit with
  | .error c => .error c
  | .ok e =>
    if k = .write ∧ !e.w then .error Cause.protection
    else if k = .fetch ∧ !e.x then .error Cause.protection
    else .ok (e.pa + (va - e.va))

/-! ### Pointer checks (R36 to R40, R303) -/

/-- On whose behalf an address is used. -/
structure Who where
  core : Nat
  rcb : Word
  tid : BitVec 48
  privBase : Word
  privSize : Nat
  deriving DecidableEq, Repr

/-- The base of a region's local-store allocation on a core (R37). -/
def State.allocBase (s : State) (core : Nat) (rcb : Word) : Option (Nat × Nat) :=
  ((s.coreAt core).alloc.find? fun e => e.1 == rcb).map (·.2)

/-- A byte of a region's allocation on a core (R37, R39). -/
def State.localKey (s : State) (core : Nat) (rcb : Word) (off : Nat) : Except (BitVec 8) Nat :=
  match s.allocBase core rcb with
  | some (base, size) => if off < size then .ok (localBase core + base + off) else .error Cause.protection
  | none => .error Cause.protection

/-- Does a cluster hold a core of the region's core set (R303)? -/
def State.clusterInSet (s : State) (rcb : Word) (cluster : Nat) : Bool :=
  (List.range 8).any fun k => s.inCoreSet rcb (cluster * 8 + k)

/-- May a region use a scratchpad (R306)? -/
def State.padAllowed (s : State) (cluster : Nat) (rcb : Word) : Bool := match (s.clusterAt cluster).padOwner with
  | none => true
  | some o => s.descends o 64 rcb

/-- Every task that a core holds, in a slot or not. -/
def Core.tasks (c : Core) : List Ctx :=
  (c.slots.toList.filter fun sl => sl.st != .empty).map (·.ctx) ++ (c.runq ++ c.launches).map (·.ctx) ++ c.images.map (·.ctx)

/-- Is a tag-0x0 address another task's private segment, which the region does not share (R38)? A region itself, which has
TID 0 here, is no task. -/
def State.foreignPrivate (s : State) (w : Who) (va : Nat) : Bool :=
  w.tid != 0 && !s.privateShare w.rcb && s.cores.any fun e => e.2.tasks.any fun c =>
    c.tid != w.tid && c.rcb == w.rcb && decide (c.privBase.toNat ≤ va) && decide (va < c.privBase.toNat + c.privSize.toNat)

/-- A device-virtual byte: bits 55:0 of a tag-0x0 address (R36, R39, R303). A fetch never reads through the apertures
(R319): the spec names no cause, and the model gives PROTECTION, as for a page without X (DESIGN CHOICE, log 35). -/
def State.virtualKey (s : State) (w : Who) (va : Nat) (k : AccKind) : Except (BitVec 8) Nat :=
  if k = .fetch ∧ 0xE ≤ va / 2 ^ 52 then .error Cause.protection
  else if va / 2 ^ 52 = 0xF then
    if va / 2 ^ 31 % 2 ^ 21 ≠ 0 then .error Cause.translation
    else
      let core := va / 2 ^ 29 % 4 * 512 + va / 2 ^ 23 % 64 * 8 + va / 2 ^ 20 % 8
      if s.inCoreSet w.rcb core then s.localKey core w.rcb (va % 2 ^ 20) else .error Cause.protection
  else if va / 2 ^ 52 = 0xE then
    if va / 2 ^ 31 % 2 ^ 21 ≠ 0 ∨ va / 2 ^ 21 % 4 ≠ 0 then .error Cause.translation
    else
      let cluster := va / 2 ^ 29 % 4 * 64 + va / 2 ^ 23 % 64
      if s.clusterInSet w.rcb cluster && !(s.clusterAt cluster).nomx && s.padAllowed cluster w.rcb then
        .ok (padBase cluster + va % 2 ^ 21)
      else .error Cause.protection
  else if s.foreignPrivate w va then .error Cause.protection
  else s.translate (clusterOfCore w.core) (s.ptRoot w.rcb) va k

/-- The checks of R36 on a peer number. -/
def State.peerCheck (s : State) (p : Nat) : Option (BitVec 8) :=
  let (st, part) := (tabGet s.hub.peers p).getD (.unpopulated, false)
  match st with
  | .unpopulated | .disabled => some Cause.peerAbsent
  | .dead => if part then some Cause.peerDead else some Cause.peerPartition
  | .live => if part then none else some Cause.peerPartition

/-- One byte address checked as R36 gives, in its order. -/
def State.resolve (s : State) (w : Who) (p : Word) (k : AccKind) : Except (BitVec 8) Home :=
  let n := p.toNat
  match n / 2 ^ 60 with
  | 0x0 => if n / 2 ^ 56 % 16 ≠ 0 then .error Cause.addrTag else (s.virtualKey w (n % 2 ^ 56) k).map .mem
  | 0x8 => match s.peerCheck (n / 2 ^ 48 % 2 ^ 12) with
    | some c => .error c
    | none => .ok (.fab (BitVec.ofNat 12 (n / 2 ^ 48)) (BitVec.ofNat 48 n))
  | 0xE => if n / 2 ^ 20 % 2 ^ 40 ≠ 0 then .error Cause.addrTag
    else (s.localKey w.core w.rcb (n % 2 ^ 20)).map .mem
  | 0xF => if n / 2 ^ 32 % 2 ^ 28 ≠ 0 then .error Cause.addrTag
    else if n % 2 ^ 32 < w.privSize then
      (s.translate (clusterOfCore w.core) (s.ptRoot w.rcb) (w.privBase.toNat + n % 2 ^ 32) k).map .mem
    else .error Cause.protection
  | _ => .error Cause.addrTag

/-- An element checked at its first and its last byte, then for alignment (R36, R155). Where only the last byte fails, the
record carries the element's address (DEDUCED, log 62). -/
def State.element (s : State) (w : Who) (p : Word) (n align : Nat) (k : AccKind) : Except Trap Home :=
  match s.resolve w p k with
  | .error c => .error (Trap.at_ c p)
  | .ok h => match s.resolve w (p + BitVec.ofNat 64 (n - 1)) k with
    | .error c => .error (Trap.at_ c p)
    | .ok _ => if p.toNat % align = 0 then .ok h else .error (Trap.at_ Cause.misalign p)

/-- Elements in order; the first failure decides (R155). -/
def State.elements (s : State) (w : Who) (n : Nat) (k : AccKind) : List Word → Except Trap (List Home)
  | [] => .ok []
  | p :: ps => match s.element w p n n k with
    | .error t => .error t
    | .ok h => match s.elements w n k ps with
      | .error t => .error t
      | .ok hs => .ok (h :: hs)

/-- The issuing task, as an address user. -/
def Ctx.who (c : Ctx) (core : Nat) : Who :=
  { core := core, rcb := c.rcb, tid := c.tid, privBase := c.privBase, privSize := c.privSize.toNat }
/-- The issuing task, as an address user. -/
def State.who (s : State) : Who := s.ctx.who s.core

/-- Is a home in a die's frozen weight store, as the issuing core sees the freeze bit (R162, R308)? -/
def State.frozen (s : State) (core : Nat) : Home → Bool
  | .mem key => match spaceOf key with
    | .weight d => (s.coreAt core).frz[Fin.ofNat 4 d]
    | _ => false
  | .fab _ _ => false

/-! ### Tiles -/

/-- The positions of a shape, row by row. -/
def Shape.positions (h : Shape) : List (Nat × Nat) :=
  (List.range (h.rows.toNat + 1)).flatMap fun i => (List.range (h.cols.toNat + 1)).map fun j => (i, j)

/-! ### Registers -/

/-- The status bits of a slot set (R21). -/
def Ctx.raise (c : Ctx) (f : Flags) : Ctx := { c with sstat := c.sstat ||| f }
/-- The status bits of the issuing slot set (R21). -/
def State.raise (s : State) (f : Flags) : State := s.modCtx (·.raise f)

/-- The bit of a g register in a mask. -/
def gBit (d : GIx) : BitVec 16 := BitVec.ofNat 16 (2 ^ d.val)
/-- Register `d` holds nothing from outside the thread that has not been read (R284). -/
def Ctx.saw (c : Ctx) (d : GIx) : Ctx := { c with extern := c.extern &&& ~~~gBit d }
/-- A g register written: Full, not Dead, no tag (R13, R14). -/
def Ctx.setG (c : Ctx) (d : GIx) (v : Word) : Ctx :=
  { c with g := c.g.set d { val := v, f := true, d := false, tag := none }, extern := c.extern &&& ~~~gBit d }
/-- A v register written: Full, not Dead, no tag (R13, R14). -/
def Ctx.setV (c : Ctx) (d : VIx) (v : VWord) : Ctx :=
  { c with v := c.v.set d { val := v, f := true, d := false, tag := none } }
/-- A g register made Pending with a tag (R14). -/
def Ctx.pendG (c : Ctx) (d : GIx) (tag : Nat) : Ctx :=
  { c with g := c.g.set d { (c.g[d]) with f := false, d := false, tag := some tag } }
/-- A v register made Pending with a tag (R14). -/
def Ctx.pendV (c : Ctx) (d : VIx) (tag : Nat) : Ctx :=
  { c with v := c.v.set d { (c.v[d]) with f := false, d := false, tag := some tag } }
/-- A result returns: the register becomes Full, unless it is Dead, when the result is discarded (R14, R20). -/
def Ctx.fillG (c : Ctx) (d : GIx) (tag : Nat) (v : Word) : Ctx :=
  let r := c.g[d]
  if r.tag = some tag then (if r.d then { c with g := c.g.set d { r with tag := none } } else c.setG d v) else c
/-- A result returns to a v register (R14, R20). -/
def Ctx.fillV (c : Ctx) (d : VIx) (tag : Nat) (v : VWord) : Ctx :=
  let r := c.v[d]
  if r.tag = some tag then (if r.d then { c with v := c.v.set d { r with tag := none } } else c.setV d v) else c
/-- A failed result leaves its register Dead (R51). -/
def Ctx.failG (c : Ctx) (d : GIx) (tag : Nat) : Ctx :=
  if c.g[d].tag = some tag then { c with g := c.g.set d { (c.g[d]) with f := false, d := true, tag := none } } else c
/-- A failed result leaves its register Dead (R51). -/
def Ctx.failV (c : Ctx) (d : VIx) (tag : Nat) : Ctx :=
  if c.v[d].tag = some tag then { c with v := c.v.set d { (c.v[d]) with f := false, d := true, tag := none } } else c
/-- A g register marked Dead; a pending result keeps its tag (R20). -/
def Ctx.killG (c : Ctx) (d : GIx) : Ctx := { c with g := c.g.set d { (c.g[d]) with f := false, d := true } }
/-- A v register marked Dead; a pending result keeps its tag (R20). -/
def Ctx.killV (c : Ctx) (d : VIx) : Ctx := { c with v := c.v.set d { (c.v[d]) with f := false, d := true } }

/-- All g register numbers. -/
def allG : List GIx := (List.range 16).map (Fin.ofNat 16)
/-- All v register numbers. -/
def allV : List VIx := (List.range 8).map (Fin.ofNat 8)

/-- The registers that CMASK names marked Dead (R20). -/
def Ctx.markDead (c : Ctx) : Ctx :=
  let c1 := allG.foldl (fun c d => if c.cmask.getLsbD d.val then c.killG d else c) c
  allV.foldl (fun c d => if c.cmask.getLsbD (16 + d.val) then c.killV d else c) c1

/-- Predicate `p` (R12): p0 reads 1. -/
def Ctx.pred (c : Ctx) (p : PIx) : Bool := p == 0 || c.pw.getLsbD p.val
/-- Predicate `p` written; a write to p0 is ignored (R12). -/
def Ctx.setP (c : Ctx) (p : PIx) (b : Bool) : Ctx :=
  if p == 0 then c
  else { c with pw := if b then c.pw ||| BitVec.ofNat 16 (2 ^ p.val) else c.pw &&& ~~~BitVec.ofNat 16 (2 ^ p.val) }

/-- The smallest rank in a registry (R22). -/
def minRank (l : List Obl) : Nat := l.foldl (fun a o => if o.rank.toNat < a then o.rank.toNat else a) 0xFFFFFFFF
/-- MINRANK of a task (R22). -/
def Ctx.minRank (c : Ctx) : Nat := Machine.minRank c.obls

/-- Does the host complete a read of `n` bytes with an error (R321; log 54)? -/
def State.hostFails (s : State) (key n : Nat) : Bool := s.hub.hostErrs.any fun l => decide (key / 64 ≤ l) && decide (l * 64 < key + n)

/-- What is wrong with `n` bytes at a key as a core reads or writes them, if anything: the cause, and whether reading
them contains the reader (R321, R311, R373, R375). `err` is an error that the home has found. -/
def State.dataFault (s : State) (key n : Nat) (err : Bool) : Option (BitVec 8 × Bool) :=
  let bad := if err || s.poisoned key n then some (Cause.uncorrectable, true) else none
  match spaceOf key with
  | .loc c => if (s.coreAt c).contained then some (Cause.uncorrectable, false) else bad
  | .second p => match tabGet s.hub.expanders p with
    | some (_, true) => bad
    | _ => some (Cause.translation, false)
  | .host => if err || s.hostFails key n then some (Cause.uncorrectable, false) else none
  | _ => bad

/-! ### Taking a trap (R50, R51, R276) -/

/-- The relaxed stores and atomics of a thread that are outstanding, as the dump lists them (R378). -/
def inflightOf (l : List Access) : List InFlight := l.filterMap fun a => match a.op with
  | .store n els _ addrs => if a.park then none else some
      { id := a.id, addr := addrs.headD 0, size := n * els.length, atomic := false, status := 0xFF
        data := (els.foldr (fun e acc => e.2 % 2 ^ (8 * n) + 2 ^ (8 * n) * acc) 0) % 2 ^ 512, old := 0 }
  | .atomic _ op _ addr => some
      { id := a.id, addr := addr, size := op.w, atomic := true, status := 0xFF, data := op.x.toNat, old := 0 }
  | _ => none

/-- The shared operation by which a slot takes a trap: it enters state 8 with its record pending delivery, and PCNT 7
counts it (R275, R276). Nothing else of the task changes. The trailing copy of a redundant task has no record (R381). -/
def State.takeTrap (s : State) (n : Nat) (i : Fin 16) (t : TrapRec) : State :=
  let trail := (s.ctxAt n i).trail
  ((s.modCtxAt n i fun c => { c with
      trap := some t, handled := trail, faultSlot := i, answered := none
      inflight := if t.late then t.inflight else inflightOf c.accs }).setSt n i .faulted).modCore n fun c => { c with pcnt7 := if trail then c.pcnt7 else c.pcnt7 + 1 }

/-- A precise fault of the issuing pair (R50). -/
def State.trapNow (s : State) (t : Trap) : State :=
  s.takeTrap s.core s.slot { cause := t.cause, late := false, pc := s.ctx.pc, addr := t.addr, ranks := t.ranks, pair := s.pair }

/-- A late fault joins those that a slot will take before it issues again (R51). -/
def Ctx.addLate (c : Ctx) (cause : BitVec 8) (pc pair addr : Word) : Ctx :=
  { c with late := c.late ++ [{ cause := cause, late := true, pc := pc, addr := addr, ranks := 0, pair := pair, inflight := inflightOf c.accs }] }

/-- The return from a trap: a slot in state 8 goes back to state 1 (R271). A further late fault stops it again before
it issues (R51). Streams that stopped draining go on (R169). -/
def State.resumeTask (s : State) (n : Nat) (i : Fin 16) : State :=
  if (s.slotAt n i).st = .faulted then
    (s.modCtxAt n i fun c => { c with
      trap := none, handled := false, bpStop := false
      bpSkip := if c.bpStop then c.trap.map (·.pc) else c.bpSkip
      ports := c.ports.map fun p => p.map fun q => { q with halted := false } }).setSt n i .ready
  else s

end Sys2Proof.Machine
end

