-- ==== Sys2Proof/Machine/Operands.lean ====
section
/-! DEFINITION. Operands and issue: the presence rules of R13 to R16, and how a pair parks, faults or commits
(R43, R45 to R50). -/

namespace Sys2Proof.Machine

/-! ### Packets (R349) -/

/-- A packet with every field zero. -/
def Packet.zero : Packet :=
  { typ := 0, vn := 0, gen := 0, nflit := 0, birth := 0, src := 0, dst := 0, srcEp := 0, dstEp := 0, ctr := 0, rtag := 0, offset := 0
    bytes := 0, k := 0, c := 0, arg := 0, payload := [] }

/-- The fabric time in µs, modulo 4,096 (R349). -/
def State.birth (s : State) : BitVec 12 := BitVec.ofNat 12 (s.clk / 1600)

/-- The endpoint of a core: die, cluster and core (R349, R6). -/
def epOf (core : Nat) : BitVec 11 := BitVec.ofNat 11 core

/-- The virtual network of a type (R348); a group report on its way to the root travels in 2. -/
def vnOf (typ : BitVec 8) : BitVec 2 := match typ.toNat with
  | 0x04 | 0x06 | 0x0A | 0x0B | 0x0C | 0x0D | 0x0E | 0x10 => 1
  | 0x02 | 0x08 => 2
  | 0x11 | 0x12 => 3
  | _ => 0

/-- Is a type one of the table's (R350)? -/
def typAssigned (typ : BitVec 8) : Bool := decide (1 ≤ typ.toNat) && decide (typ.toNat ≤ 0x12)

/-- A packet leaves for the fabric (R348, R349): its virtual network, its payload flits, the sender and the time. -/
def State.sendPkt (s : State) (p : Packet) : State :=
  { s with net := s.net ++ [{ p with
      src := s.hub.peer, birth := s.birth, vn := if p.vn = 2 then 2 else vnOf p.typ
      nflit := BitVec.ofNat 3 ((p.payload.length + 63) / 64) }] }

/-- The header words of a packet (R349). -/
def Packet.header (p : Packet) : List Word :=
  [BitVec.ofNat 64 (p.typ.toNat + p.vn.toNat * 2 ^ 8 + p.gen.toNat * 2 ^ 12 + p.nflit.toNat * 2 ^ 16 + p.birth.toNat * 2 ^ 24 +
     p.src.toNat * 2 ^ 36 + p.dst.toNat * 2 ^ 48),
   BitVec.ofNat 64 (p.srcEp.toNat + p.dstEp.toNat * 2 ^ 11 + p.ctr.toNat * 2 ^ 24 + p.rtag.toNat * 2 ^ 38),
   BitVec.ofNat 64 (p.offset.toNat + p.bytes.toNat * 2 ^ 48),
   BitVec.ofNat 64 p.k.toNat,
   BitVec.ofNat 64 (p.c.toNat + p.arg.toNat * 2 ^ 24)]

/-- The result tag of element `k` of an access in packets (R349). -/
def rtagOf (id k : Nat) : BitVec 16 := BitVec.ofNat 16 (id * 64 + k)

/-- The numbers under which the operations of a core's tasks and engine are outstanding: a packet's result tag tells 1,024 of
them apart (R348, R349; log 18). -/
def Core.rids (c : Core) : List Nat :=
  (c.slots.toList.map (·.ctx) ++ c.images.map (·.ctx)).flatMap (fun x => x.accs.map (·.rid)) ++
    c.engs.flatMap (fun o => o.work.asks.map (·.rid)) ++ c.redputs.map fun r => r.1.toNat / 64
/-- Is the result tag that a core's next operation would take still in use (R348)? -/
def State.tagInUse (s : State) (n : Nat) : Bool := (s.coreAt n).rids.any fun r => r % 1024 == s.seq % 1024
/-- Is the next result tag of the issuing core in use? -/
def State.tagBusy (s : State) : Bool := s.tagInUse s.core

/-- A READ of `n` bytes (R160, R350). -/
def readPkt (core : Nat) (peer : BitVec 12) (off : BitVec 48) (n : Nat) (tag : BitVec 16) : Packet :=
  { Packet.zero with typ := 0x03, dst := peer, srcEp := epOf core, rtag := tag, offset := off, bytes := BitVec.ofNat 16 n }

/-! ### Stops (R280, R385) -/

/-- The breakpoint number that a PC meets: an enabled word whose bits 63:3 are the PC's (R280). -/
def Ctx.bpHit (c : Ctx) : Option Nat := c.bp.toList.findIdx? fun w => w.getLsbD 0 && w.toNat / 8 == c.pc.toNat / 8

/-- Is a task to stop before its next pair (R280, R385)? A trailing copy stops with its leading copy (log 24). -/
def Ctx.stopDue (c : Ctx) : Bool := !c.trail && (c.dbgHalt.isSome || (c.bpHit.isSome && c.bpSkip != some c.pc))
/-- Would a slot stop before its next pair (R280, R385)? -/
def Slot.stops (sl : Slot) : Bool := sl.st == .ready && sl.ctx.stopDue

/-! ### Plans and gates -/

/-- What one slot of a pair does at issue: it parks the pair in a state, faults, asks the home whose answer decides on the
pair (R153, R187), or has an effect. The effect begins with the reading of the sources, which both slots do on the state
before the pair (R47); then comes a part before the PC advances, and a part after the whole pair has committed, which is
told whether S is 1. -/
inductive Plan
  | park (st : SlotSt)
  | trap (t : Trap)
  | ask (q : Query)
  | commit (reads now : State → State) (after : Bool → State → State)

/-- An effect that reads no source. -/
def Plan.go (now : State → State) (after : Bool → State → State) : Plan := .commit id now after
/-- The effect of a slot that does nothing (R44, R46). -/
def Plan.nop : Plan := .go id fun _ s => s
/-- An effect with no part after the commit. -/
def Plan.act (now : State → State) : Plan := .go now fun _ s => s

/-- What the condition of a register makes of a pair (R14, R16). -/
inductive Gate
  | ok | park | trap (t : Trap)
  deriving DecidableEq, Repr

/-- The port number of a register that can be one (R16). -/
def portIx (g : GIx) : Option (Fin 4) := if isPortReg' g then some (Fin.ofNat 4 (g.val - 10)) else none
where isPortReg' (g : GIx) : Bool := 10 ≤ g.val && g.val ≤ 13

/-- The port bound at a register. -/
def Ctx.portOf (c : Ctx) (g : GIx) : Option Port := (portIx g).bind fun k => c.ports[k]

/-- A register that awaits a value: Pending or Empty (R13). -/
def GReg.waits (r : GReg) : Bool := !r.f && !r.d
/-- A Pending register (R13). -/
def GReg.pending (r : GReg) : Bool := !r.f && !r.d && r.tag.isSome
/-- An Empty register (R13). -/
def GReg.empty (r : GReg) : Bool := !r.f && !r.d && r.tag.isNone
/-- A register that awaits a value (R13). -/
def VReg.waits (r : VReg) : Bool := !r.f && !r.d
/-- A Pending register (R13). -/
def VReg.pending (r : VReg) : Bool := !r.f && !r.d && r.tag.isSome

/-- The address of element `i` of a port (R168). -/
def Port.elem (p : Port) (i : Nat) : Word := p.base + BitVec.ofNat 64 i * p.stride

/-- Is an earlier memory operation of the thread outstanding (R153)? Matrix operations and slice moves are none. -/
def Access.earlier (a : Access) : Bool := match a.op with
  | .matrix _ => false
  | _ => true

/-- Is an element of a write port still to be written that drains without a RESUME (R169)? -/
def Ctx.draining (c : Ctx) : Bool := c.ports.toList.any fun p => match p with
  | some q => q.wr && !q.fifo.isEmpty && !q.halted
  | none => false

/-- Does a write-bound port hold elements (R169)? -/
def Ctx.undrained (c : Ctx) : Bool := c.ports.toList.any fun p => match p with
  | some q => q.wr && !q.fifo.isEmpty
  | none => false

/-- A plain access waits for every earlier access (R153, R169). -/
def State.plainBlocked (s : State) : Bool := s.ctx.accs.any (·.earlier) || s.ctx.undrained

/-- The address of an element of a port checked as its access is made (R160, R169): tag 0x8 is none of its tags. -/
def State.portElement (s : State) (w : Who) (p : Port) (i : Nat) (k : AccKind) : Except Trap Home :=
  if (p.elem i).toNat / 2 ^ 60 = 8 then .error (Trap.at_ Cause.addrTag (p.elem i))
  else s.element w (p.elem i) (2 ^ p.size) 1 k

/-! ### The two copies of a redundant task (R379, R380) -/

/-- Is the issuing task redundant? -/
def State.rdt (s : State) : Bool := s.isRdt s.ctx.rcb

/-- The leading slot of the issuing slot. -/
def leadSlot (i : Fin 16) : Fin 16 := Fin.ofNat 16 (i.val % 8)

/-- The slot of the trailing copy of a task. -/
def trailSlot (i : Fin 16) : Fin 16 := Fin.ofNat 16 (i.val % 8 + 8)

/-- The number of a port's next element in the load-value queue: those of its loads lie below 2^33, those of register fills
from 2^60 on (log 24). -/
def Port.lvKey (p : Port) : Nat := 2 ^ 33 * (1 + p.no) + p.pos
/-- The number of a fill of register `g` between the pairs `n` - 1 and `n` of a task in the load-value queue (log 24). -/
def fillKey (n : Nat) (g : GIx) : Nat := 2 ^ 60 + 16 * n + g.val

/-- The element that the trailing copy pops next: as the load-value queue holds it, or as its leading copy, at the same pair,
is about to pop it (R380, R381). -/
def State.trailElem (s : State) (k : Fin 4) (p : Port) : Option Word :=
  let lead := leadSlot s.slot
  match s.cur.lvq.find? fun e => e.1 == lead && e.2.1 == p.lvKey with
  | some e => e.2.2.head?
  | none => match (s.ctxAt s.core lead).ports[k] with
    | some q => if q.no = p.no ∧ q.pos = p.pos then q.fifo.head?.map (·.val) else none
    | none => none

/-- The element that the pair pops at register `g`, whose port is `p`: the trailing copy has it from the leading one (R169,
R380). -/
def State.nextElem (s : State) (g : GIx) (p : Port) : Option Word :=
  if s.rdt && s.ctx.trail then s.trailElem (Fin.ofNat 4 (g.val - 10)) p else p.fifo.head?.map (·.val)

/-- May the pair read register `g` now (R14, R16, R169)? The first read of a register filled from outside the thread, and
of an element that an engine has fed, waits for every earlier access (R284, R285). -/
def State.readGate (s : State) (g : GIx) : Gate :=
  match s.ctx.portOf g with
  | some p =>
    if p.wr then (if s.ctx.g[g].pending then .park else .trap (Trap.plain Cause.stream))
    else if (s.nextElem g p).isSome then (if p.base = 0 ∧ s.plainBlocked = true then .park else .ok)
    else if p.count ≤ p.pos then .trap (Trap.plain Cause.stream)
    else if p.base = 0 then .park
    else match s.portElement s.who p p.pos .read with
      | .error t => .trap t
      | .ok _ => .park
  | none =>
    if s.ctx.g[g].waits then .park
    else if s.ctx.extern.getLsbD g.val ∧ s.plainBlocked = true then .park else .ok

/-- May the pair write register `g` now (R14, R16)? A load that will push an element of a write port makes its register
Pending, so that elements keep the order of their pairs. -/
def State.writeGate (s : State) (g : GIx) : Gate :=
  if s.ctx.g[g].pending then .park
  else match s.ctx.portOf g with
    | some p => if p.wr then (if p.fifo.length < 8 then .ok else .park) else .trap (Trap.plain Cause.stream)
    | none => .ok

/-- May the pair read register `v` now (R14)? -/
def State.readGateV (s : State) (v : VIx) : Gate := if s.ctx.v[v].waits then .park else .ok
/-- May the pair write register `v` now (R14)? -/
def State.writeGateV (s : State) (v : VIx) : Gate := if s.ctx.v[v].pending then .park else .ok

/-- The value a pair reads in register `g`: the next element of a read port, zero for a Dead one (R14, R16). -/
def State.gv (s : State) (g : GIx) : Word :=
  match s.ctx.portOf g with
  | some p => (s.nextElem g p).getD 0
  | none => if s.ctx.g[g].d then 0 else s.ctx.g[g].val
/-- The value a pair reads in register `v` (R14). -/
def State.vv (s : State) (v : VIx) : VWord := if s.ctx.v[v].d then 0 else s.ctx.v[v].val

/-- What an RDT task's pop does to the load-value queue of its core: the element that the leading copy takes enters it, and
the trailing copy takes it from there (R380). -/
def State.popLv (s : State) (k : Fin 4) (q : List (Fin 16 × Nat × List Word)) : List (Fin 16 × Nat × List Word) :=
  match s.ctx.ports[k] with
  | some p =>
    if !s.rdt then q
    else if s.ctx.trail then q.filter fun e => !(e.1 == leadSlot s.slot && e.2.1 == p.lvKey)
    else q ++ [(s.slot, p.lvKey, (p.fifo.head?.map (·.val)).toList)]
  | none => q

/-- One element popped from a port, once for a pair (R169). -/
def State.pop (s : State) (k : Fin 4) : State :=
  if s.popped.contains k then s
  else
    let s1 := s.modCtx fun c => { c with ports := c.ports.set k (c.ports[k].map fun p => { p with fifo := p.fifo.drop 1, pos := p.pos + 1 }) }
    { s1.modCur fun c => { c with lvq := s.popLv k c.lvq } with popped := k :: s.popped }

/-- What reading a register that is no port does: a Dead one sets DEADRD, and a fill from outside has been read (R14,
R284). -/
def State.sawG (s : State) (g : GIx) : State :=
  if s.ctx.g[g].d then s.raise Flag.deadrd
  else if s.ctx.extern.getLsbD g.val then s.modCtx (·.saw g)
  else s

/-- What reading register `g` does: a port pops, a Dead register sets DEADRD (R14, R16). -/
def State.readG (s : State) (g : GIx) : State :=
  match portIx g with
  | some k => if s.ctx.ports[k].isSome then s.pop k else s.sawG g
  | none => s.sawG g
/-- What reading register `v` does: a Dead register sets DEADRD (R14). -/
def State.readV (s : State) (v : VIx) : State := if s.ctx.v[v].d then s.raise Flag.deadrd else s

/-- The numbers of the elements of write ports that are still to be written, those that an outstanding load will push among
them (R167, R169). -/
def Ctx.due (c : Ctx) : List Nat :=
  (c.ports.toList.flatMap fun p => match p with
    | some q => if q.wr then q.fifo.map (·.id) else []
    | none => []) ++ c.accs.filterMap fun a => a.push.map (·.id)

/-- The element that the pair at `pc` pushes, as it issues (R154, R167, R169). -/
def Ctx.elem (c : Ctx) (v pc pair : Word) : Elem :=
  { val := v, pc := pc, pair := pair, held := c.holdAll ++ c.holdRel, heldPorts := c.holdAllPorts ++ c.holdRelPorts
    id := c.pushed, before := c.due }
/-- An element joins the FIFO of a port (R16). -/
def Port.push (p : Port) (e : Elem) : Port := { p with fifo := p.fifo ++ [e], pos := p.pos + 1 }
/-- Does a value for register `d` become an element of a write port (R16)? -/
def Ctx.pushes (c : Ctx) (d : GIx) : Bool := (c.portOf d).any (·.wr)
/-- The element `e` joins the write port at register `d`; elsewhere the task is as `f` leaves it (R14, R16). -/
def Ctx.pushInto (c : Ctx) (d : GIx) (e : Elem) (f : Ctx → Ctx) : Ctx :=
  match c.portOf d, portIx d with
  | some p, some k => if p.wr then { f c with ports := c.ports.set k (some (p.push e)) } else f c
  | _, _ => f c
/-- A value that the pair at `pc` writes to register `d`: a write port takes it as an element (R14, R16). -/
def Ctx.putG (c : Ctx) (d : GIx) (v pc pair : Word) : Ctx :=
  { c.pushInto d (c.elem v pc pair) (·.setG d v) with pushed := c.pushed + 1 }

/-- A result written to register `g`: a write port takes it as an element (R14, R16). -/
def State.writeG (s : State) (d : GIx) (v : Word) : State := s.modCtx fun c => c.putG d v c.pc s.pair
/-- A result written to register `v` (R14). -/
def State.writeV (s : State) (d : VIx) (v : VWord) : State := s.modCtx (·.setV d v)
/-- A predicate written (R12). -/
def State.writeP (s : State) (p : PIx) (b : Bool) : State := s.modCtx (·.setP p b)

/-- The gates of the registers that a slot names, sources first. -/
def State.gates (s : State) (gs : List GIx) (vs : List VIx) (gd : List GIx) (vd : List VIx) : List Gate :=
  gs.map s.readGate ++ vs.map s.readGateV ++ gd.map s.writeGate ++ vd.map s.writeGateV

/-- Does any gate park the pair? -/
def anyPark : List Gate → Bool
  | [] => false
  | .park :: _ => true
  | _ :: l => anyPark l
/-- The first fault among the gates. -/
def firstTrap : List Gate → Option Trap
  | [] => none
  | .trap t :: _ => some t
  | _ :: l => firstTrap l

/-- What reading the sources does. -/
def State.readAll (s : State) (gs : List GIx) (vs : List VIx) : State := vs.foldl State.readV (gs.foldl State.readG s)

/-- A plan behind its register gates (R14, R16, R47): the sources `gs`, `vs` and the destinations `gd`, `vd`. A pair that
is held back does not fault (R50). -/
def gated (s : State) (gs : List GIx) (vs : List VIx) (gd : List GIx) (vd : List VIx) (p : Plan) : Plan :=
  let l := s.gates gs vs gd vd
  if anyPark l then .park .reg
  else match firstTrap l with
    | some t => match p with
      | .park st => .park st
      | _ => .trap t
    | none => match p with
      | .commit reads now after => .commit (fun s => reads (s.readAll gs vs)) now after
      | p => p

/-- The slot takes its issue: it is in state 2, and the counters of issued pairs go up (R11, R275, R342). -/
def State.commitStart (s : State) : State :=
  let prio := s.rcbPrio s.ctx.rcb
  let s1 := (s.enter .issued).modSlot s.core s.slot fun sl => { sl with
    lastIssue := s.clk
    ctx := { sl.ctx with
      pcnt0 := sl.ctx.pcnt0 + 1, pairs := sl.ctx.pairs + 1, bpSkip := none, answered := none, settleDue := false } }
  s1.modCur fun c => { c with pcnt2 := c.pcnt2 + 1, rr := tabPut c.rr prio s.slot }

/-- The next PC of a pair that transfers no control (R41). -/
def State.advance (s : State) : State := s.modCtx fun c => { c with pc := c.pc + 8 }

/-- Is a result of the thread outstanding (R43)? An element of a write port is a relaxed store (R169); behind a failed one,
it goes on after RESUME only, and no settle waits for it. -/
def Ctx.outstanding (c : Ctx) : Bool := !c.accs.isEmpty || c.draining

/-- The settle marker (R43): the slot waits in state 10 while a result is outstanding; a slot that the pair has parked
does so after its park. -/
def State.settleIf (s : State) (settle : Bool) : State :=
  if settle && s.ctx.outstanding then
    (if s.st = .issued then s.enter .settle else s.modCtx fun c => { c with settleDue := true })
  else s

/-- Where a slot goes whose park has ended: state 1, or the settle that its pair has asked for (R43). -/
def Ctx.goesTo (c : Ctx) : SlotSt := if c.settleDue && c.outstanding then .settle else .ready

/-- The core's clk goes to the issuing slot (R342). -/
def State.useClk (s : State) : State :=
  (s.modSlot s.core s.slot fun sl => { sl with lastIssue := s.clk }).modCur fun c => { c with
    rr := tabPut c.rr (s.rcbPrio s.ctx.rcb) s.slot }

/-- The access counter of the core (R275). -/
def State.count3 (s : State) : State := s.modCur fun c => { c with pcnt3 := c.pcnt3 + 1 }

/-- The pair issues, and the slot parks in state 3 until the home that it asks has answered (R153, R187, R342); a peer is sent
a READ (R160). The read of a descriptor is a plain access, which PCNT 3 counts (R168, R173, R275); an object instruction counts
as it commits. -/
def State.asks (s : State) (q : Query) : State :=
  let id := s.seq
  let s1 := (s.useClk.modCtx fun c => { c with accs := c.accs ++
      [{ id := id, pc := c.pc, pair := s.pair, op := .ask q, park := true, resends := 0, lv := none, rid := id, done := 0, bad := none }] }).enter
    .mem
  (match q with
    | .peer p o n => s1.count3.sendPkt (readPkt s.core p o n (rtagOf id 0))
    | .desc _ _ => s1.count3
    | .home => s1).bump

/-- A pair whose executing slots have these plans (R47, R50, R277): a slot that parks comes before all else, then a home
that is to be asked, then a fault. -/
def issuePair (settle : Bool) (c a : Plan) (s : State) : State :=
  match c, a with
  | .park st, _ => s.enter st
  | _, .park st => s.enter st
  | .ask h, _ => s.asks h
  | _, .ask h => s.asks h
  | .trap t, .trap u => if causeRank u.cause < causeRank t.cause then s.trapNow u else s.trapNow t
  | .trap t, .commit _ _ _ => s.trapNow t
  | .commit _ _ _, .trap u => s.trapNow u
  | .commit cr cn ca, .commit ar an aa =>
    (aa settle (ca settle (an (cn (ar (cr s.commitStart)))).advance)).settleIf settle

/-- One instruction alone in its pair. -/
def issueOne (p : Plan) (s : State) : State := issuePair false p Plan.nop s

/-! ### Redundant execution (R379 to R381) -/

/-- Has the trailing copy of a task caught up with its leading copy (R379; log 24)? -/
def State.level (s : State) (n : Nat) (i : Fin 16) : Bool :=
  let c := s.ctxAt n i
  (s.ctxAt n (trailSlot i)).pairs + c.wait.isSome.toNat == c.pairs && (s.coreAt n).lvq.all (fun e => e.1 != i) &&
    (s.coreAt n).cmp.all fun e => e.slot != i || !e.ok

/-- May a task be changed or resumed from outside: is it not redundant, or are its copies level (R379; log 24)? -/
def State.settledBoth (s : State) (n : Nat) (i : Fin 16) : Bool := !s.isRdt (s.ctxAt n i).rcb || s.level n i

/-- The places taken in the load-value queue of a leading slot (R380). Values that outstanding operations will bring have
theirs already. -/
def State.lvUsed (s : State) (n : Nat) (i : Fin 16) : Nat :=
  ((s.coreAt n).lvq.filter fun e => e.1 == i).length + ((s.ctxAt n i).accs.filter fun a => a.lv.isSome).length
/-- Is the load-value queue of the issuing slot full (R380)? -/
def State.lvFull (s : State) : Bool := decide (32 ≤ s.lvUsed s.core (leadSlot s.slot))

/-- The trailing copy takes entry `n` of the load-value queue, or waits for it; `next` counts it (R380). -/
def State.follow (s : State) (n : Nat) (next : Ctx → Ctx) (k : List Word → State → State) : Plan :=
  match s.cur.lvq.find? fun e => e.1 == leadSlot s.slot && e.2.1 == n with
  | none => .park .mem
  | some e => .act fun t => k e.2.2 ((t.modCtx next).modCur fun c =>
      { c with lvq := c.lvq.filter fun x => !(x.1 == leadSlot s.slot && x.2.1 == n) })

/-- A plan that takes values from an outside source (R380): the leading copy takes the values `v` and keeps them in the
load-value queue, the trailing copy takes them from the queue. A full queue parks the leading copy in state 3; the
trailing copy waits there for a value. -/
def outside (s : State) (v : List Word) (k : List Word → State → State) : Plan :=
  if !s.rdt then .act (k v)
  else
    let n := s.ctx.rdtLoads
    let lead := leadSlot s.slot
    if s.ctx.trail then s.follow n (fun c => { c with rdtLoads := n + 1 }) k
    else if s.lvFull then .park .mem
    else .act fun t => k v ((t.modCtx fun c => { c with rdtLoads := n + 1 }).modCur fun c =>
      { c with lvq := c.lvq ++ [(lead, n, v)] })

/-- Words that the leading copy has received join the load-value queue (R380). -/
def State.keepLv (s : State) (ws : List Word) : State :=
  let n := s.ctx.rdtLoads
  (s.modCtx fun c => { c with rdtLoads := n + 1 }).modCur fun c => { c with lvq := c.lvq ++ [(leadSlot s.slot, n, ws)] }

/-- A value from the load-value queue in register `d`. The leading copy's access has failed where the queue gives none,
and the register becomes Dead (R51, R380). -/
def State.takeG (s : State) (d : GIx) (ws : List Word) (f : Word → Word) : State := match ws with
  | [] => s.modCtx (·.killG d)
  | w :: _ => s.writeG d (f w)

/-- Is a home a peer's, which the question reaches in a packet (R160)? -/
def Query.remote : Query → Bool
  | .peer _ _ _ => true
  | _ => false

/-- What a plan needs of a home: it is asked first, and the pair is decided once it has answered (R153, R187); a question to
a peer waits for a result tag (R348). The trailing copy of an RDT task asks none (R380). -/
def asked (s : State) (q : Query) (p : Plan) : Plan :=
  if s.ctx.answered.isSome || (s.rdt && s.ctx.trail) then p
  else if q.remote && s.tagBusy then .park .mem else .ask q

/-- Did the home that was asked answer with an error? -/
def Ctx.answerBad (c : Ctx) : Bool := (c.answered.bind (·.err)).isSome
/-- The words that a peer has answered. -/
def Ctx.answerWords (c : Ctx) : List Word := (c.answered.map (·.words)).getD []

/-- A plan that first reads `n` bytes at a home, if any, as a plain access (R153): data that cannot be had is a late fault
of the pair, which then has no other effect (R51, R321; log 5). `q` says that the trailing copy waits for what is read. -/
def lateRead (s : State) (d : Option (Home × Nat)) (addr : Word) (q : Bool) (p : Plan) : Plan :=
  let fail := fun (cause : BitVec 8) (found : State → State) => Plan.act fun t =>
    let u := found t
    (if q && s.rdt && !s.ctx.trail then u.keepLv [] else u).modCtx fun c => c.addLate cause s.ctx.pc s.pair addr
  match d with
  | none => p
  | some (.mem key, n) => asked s (.desc key n) (match s.dataFault key n s.ctx.answerBad with
    | none => p
    | some f => fail f.1 fun t => if f.2 then t.foundError key n else t)
  | some (.fab q o, n) => asked s (.peer q o n) (match s.ctx.answered.bind (·.err) with
    | none => p
    | some c => fail c id)

/-- The plan of an outside effect (R381): the trailing copy's effect is suppressed, and what it writes to the registers
`gd` comes from the load-value queue; `now` says that the leading copy writes them as it issues. -/
def effect (s : State) (gs gd : List GIx) (now : Bool) (p : Plan) : Plan :=
  if !s.rdt then p
  else if s.ctx.trail then
    gated s gs [] gd [] (if gd.isEmpty then Plan.nop
      else outside s [] fun ws t => gd.zipIdx.foldl (fun t e => t.takeG e.1 (ws.drop e.2) id) t)
  else if gd.isEmpty then p
  else match p with
    | .commit r f after =>
      if s.lvFull then .park .mem
      else .commit r (fun t => if now then (f t).keepLv (gd.map fun d => (f t).ctx.g[d].val) else f t) after
    | p => p

end Sys2Proof.Machine
end

