-- ==== Sys2Proof/Machine/Object.lean ====
section
/-! DEFINITION. Sync objects, registries, wakes, heirs, messages, slot claims and the completion of regions
(09, R179 to R207; 19, R336, R337, R340). -/

namespace Sys2Proof.Machine

/-- The MSI-X vector that reports an event of a kind (R388; log 59). -/
def Notice.ofEvent (kind : Nat) : Notice := .msix (1024 + Config.eventVector kind % 16)

/-! ### Records (R179) -/

/-- The fields of a sync object. -/
structure SObj where
  rank : Nat
  pcode : Nat
  poisoned : Bool
  kind : Nat
  value : Nat
  phase : Nat
  count : Nat
  arrived : Nat
  owed : Nat
  wdie : Nat
  wcnt : Nat
  deriving DecidableEq, Repr

/-- Bits of a number. -/
def nbits (w hi lo : Nat) : Nat := w / 2 ^ lo % 2 ^ (hi + 1 - lo)

/-- The record at a key (R179). -/
def State.obj (s : State) (key : Nat) : SObj :=
  let w0 := s.load key 8
  let w2 := s.load (key + 16) 8
  let w3 := s.load (key + 24) 8
  let w4 := s.load (key + 32) 8
  { rank := nbits w0 63 32, pcode := nbits w0 31 24, poisoned := nbits w0 16 16 == 1, kind := nbits w0 3 0
    value := s.load (key + 8) 8, phase := nbits w2 63 32, count := nbits w2 15 0, arrived := nbits w3 47 32
    owed := nbits w3 31 0, wdie := nbits w4 35 32, wcnt := nbits w4 31 0 }

/-- The record written (R179, R182). -/
def State.putObj (s : State) (key : Nat) (o : SObj) : State :=
  ((((s.store key 8 (o.rank % 2 ^ 32 * 2 ^ 32 + o.pcode % 256 * 2 ^ 24 + o.poisoned.toNat * 2 ^ 16 + o.kind % 16)).store
    (key + 8) 8 (o.value % 2 ^ 64)).store (key + 16) 8 (o.phase % 2 ^ 32 * 2 ^ 32 + o.count % 2 ^ 16)).store
    (key + 24) 8 (o.arrived % 2 ^ 16 * 2 ^ 32 + o.owed % 2 ^ 32)).store
    (key + 32) 8 (o.wdie % 16 * 2 ^ 32 + o.wcnt % 2 ^ 32)

/-- Is the record a sync object (R179)? -/
def SObj.valid (o : SObj) : Bool := decide (o.kind ≤ 5) && o.rank != 0xFFFFFFFF
/-- Is it a barrier? -/
def SObj.isBarrier (o : SObj) : Bool := o.kind == 2

/-- The code of a kind (R179). -/
def kindCode : ObjKind → Nat
  | .flag => 0 | .counter => 1 | .barrier => 2 | .timeline => 3 | .release => 4 | .reduce => 5

/-- Cond(O, t) (R180). -/
def SObj.cond (o : SObj) (t : Word) : Bool :=
  if o.isBarrier then
    let d := (o.phase + 2 ^ 32 - t.toNat % 2 ^ 32) % 2 ^ 32
    decide (1 ≤ d) && decide (d ≤ 2 ^ 31)
  else decide (t.toNat ≤ o.value)
/-- Unowed(O) (R180). -/
def SObj.unowed (o : SObj) : Bool := if o.isBarrier then decide (o.owed < o.count) || o.count == 0 else o.owed == 0
/-- The value effect of SIGNAL with operand `v` (R180); a barrier and the fabric kinds have none. -/
def SObj.signal (o : SObj) (v : Nat) : SObj := match o.kind with
  | 0 => { o with value := max o.value v }
  | 1 => { o with value := (o.value + v) % 2 ^ 64 }
  | 3 => { o with value := (o.value + 1) % 2 ^ 64 }
  | _ => o
/-- CompletePhase(O) (R193). -/
def SObj.completePhase (o : SObj) : SObj := { o with phase := (o.phase + 1) % 2 ^ 32, arrived := 0 }

/-! ### Registries (R186) -/

/-- The entry of an object. -/
def findObl (l : List Obl) (r : ObjRef) : Option Obl := l.find? fun o => o.ref == r
/-- An entry written: it replaces the one of the same object; an entry with M = 0 goes. -/
def putObl (l : List Obl) (o : Obl) : List Obl :=
  if o.m = 0 then l.filter fun x => x.ref != o.ref
  else if l.any fun x => x.ref == o.ref then l.map fun x => if x.ref == o.ref then o else x
  else l ++ [o]
/-- May a registry take one more entry for an object (R186)? -/
def registryRoom (l : List Obl) (r : ObjRef) : Bool := (findObl l r).isSome || decide (l.length < 4096)

/-- The entry's arrival state brought to the current phase (R192, R194). -/
def Obl.sync (e : Obl) (o : SObj) : Obl :=
  if e.ph.toNat = o.phase then e else { e with ph := BitVec.ofNat 32 o.phase, ar := 0 }
/-- A new entry with one obligation (R191). -/
def newObl (key : Nat) (addr : Word) (o : SObj) : Obl :=
  { ref := .local_ key, addr := addr, ph := BitVec.ofNat 32 o.phase, rank := BitVec.ofNat 32 o.rank, ar := 0, m := 1
    kind := BitVec.ofNat 4 o.kind }
/-- One obligation more on an object (R191). The spec gives no fault where M would pass 65,535 on an object that is no
barrier; M goes on counting here (DESIGN CHOICE, log 50). -/
def addObl (l : List Obl) (key : Nat) (addr : Word) (o : SObj) : List Obl :=
  match findObl l (.local_ key) with
  | some e => putObl l { e with m := e.m + 1 }
  | none => putObl l (newObl key addr o)

/-- A barrier seat, or another obligation, moved from one entry to another registry (R200): an arrived seat moves only
when every seat of the entry has arrived. -/
def moveObl (src dst : List Obl) (e0 : Obl) (o : SObj) : List Obl × List Obl :=
  let e := if o.isBarrier then e0.sync o else e0
  let arrived := o.isBarrier && decide (e.m ≤ e.ar)
  let t0 := (findObl dst e.ref).getD { e with ar := 0, m := 0 }
  let t := if o.isBarrier then t0.sync o else t0
  (putObl src { e with m := e.m - 1, ar := if arrived then e.ar - 1 else e.ar },
   putObl dst { t with m := t.m + 1, ar := if arrived then t.ar + 1 else t.ar })

/-! ### Waking (R193) -/

/-- The status word of a wait (R196). -/
def waitStatus (st code : Nat) : Word := BitVec.ofNat 64 (if st = 1 then code * 256 + st else st)

/-- A task's wait completes: its status word is written (R196, R197). -/
def Ctx.endWait (c : Ctx) (st code : Nat) : Ctx :=
  match c.wait with
  | some w =>
    let c1 := { c with wait := none, sstat := if st = 1 then c.sstat ||| Flag.poisonseen else c.sstat }
    match w.dst with
    | some d => c1.putG d (waitStatus st code) w.pc w.pair
    | none => c1
  | none => c

/-- The status word of a leading copy's wait joins the load-value queue (R380). -/
def State.keepStatus (s : State) (n : Nat) (i : Fin 16) (st code : Nat) : State :=
  let c := s.ctxAt n i
  if s.isRdt c.rcb && (c.wait.bind (·.dst)).isSome then
    (s.modCtxAt n i fun c => { c with rdtLoads := c.rdtLoads + 1 }).modCore n
      fun x => { x with lvq := x.lvq ++ [(i, c.rdtLoads, [waitStatus st code])] }
  else s

/-- A saved task whose wait has ended: it is resumable, from number `n` on if it was not before (R197, R340). -/
def Image.wake (im : Image) (n st code : Nat) : Image :=
  let c := im.ctx.endWait st code
  { ctx := c, ready := true, seq := if im.ready then im.seq else n, st := if im.st = .object ∨ im.st = .mailbox then c.goesTo else im.st }

/-- A waiting task wakes, in its slot or in its image (R193, R197). -/
def State.wakeTask (s : State) (tid : BitVec 48) (st code : Nat) : State :=
  match s.findTask tid with
  | some (n, i) =>
    let s1 := (s.keepStatus n i st code).modCtxAt n i fun c => c.endWait st code
    if (s.slotAt n i).st = .object ∨ (s.slotAt n i).st = .mailbox then s1.setSt n i (s1.ctxAt n i).goesTo else s1
  | none =>
    let wake := fun (im : Image) => if im.ctx.tid == tid then im.wake s.seq st code else im
    { s with cores := s.cores.map fun e => (e.1, { e.2 with images := e.2.images.map wake }), seq := s.seq + 1 }

/-- A queue's WAITOBJ completes (R330): OK, POISONED with the code, or ABANDONED. Its wake makes the queue runnable
(R327). -/
def Queue.endWait (q : Queue) (clk : Nat) (time : Word) (st code : Nat) : Queue :=
  let r : BitVec 8 × Word × Word :=
    if st = 1 then (0x01, BitVec.ofNat 64 code, time) else if st = 2 then (0x0E, 0, time) else (0x00, 0, time)
  { q with
    wait := none, since := clk
    entries := q.entries.map fun e => if e.typ = 2 ∧ e.result = none then { e with result := some r } else e }

/-- A waiter wakes (R193). -/
def State.wakeOne (s : State) (w : Waiter) (st code : Nat) : State := match w.who with
  | .task tid => s.wakeTask tid st code
  | .queue q => s.modQueue q fun x => x.endWait s.clk s.time st code

/-- How a waiter fares against a record (R193): the wake status, or none. -/
def SObj.wakes (o : SObj) (t : Word) : Option Nat :=
  if o.poisoned then some 1 else if o.cond t then some 0 else if o.unowed then some 2 else none

/-- Idle herd runs take a new snapshot when an object that a slot is bound to changes (R257): the run is no longer
idle. -/
def wakeIdle (key : Nat) (c : Cluster) : Cluster :=
  let poke := fun (r : Run) => if r.watched.toList.contains (some key) then { r with idle := false } else r
  { c with herds := c.herds.map fun h => h.map fun x => { x with run := x.run.map poke } }

/-- The home of an object tells the sweep engines of an operation on it (R257). -/
def State.pokeIdle (s : State) (key : Nat) : State :=
  { s with clusters := s.clusters.map fun e => (e.1, wakeIdle key e.2) }

/-- The die of a waiter, for WDIE (R179). -/
def State.waiterDie (s : State) (w : Waiter) : Nat := match w.who with
  | .task tid => match s.findTask tid with
    | some (n, _) => 2 ^ dieOfCore n
    | none => match s.cores.find? fun e => e.2.images.any fun im => im.ctx.tid == tid with
      | some e => 2 ^ dieOfCore e.1
      | none => 0
  | .queue _ => 0

/-- The die bits of waiters (R179). -/
def State.waiterDies (s : State) (l : List Waiter) : Nat := l.foldl (fun a w => a ||| s.waiterDie w) 0

/-- A waiter joins an object: WCNT goes up, saturating, and WDIE takes its die (R179, R196). -/
def State.countIn (s : State) (key : Nat) (w : Waiter) : State :=
  let o := s.obj key
  (s.putObj key { o with wcnt := min (o.wcnt + 1) 0xFFFFFFFF, wdie := o.wdie ||| s.waiterDie w }).pokeIdle key

/-- Waiters leave an object: WCNT goes down, and WDIE loses the dies on which none is left (R179, R197). -/
def State.countOut (s : State) (key : Nat) (gone : List Waiter) : State :=
  let o := s.obj key
  s.putObj key { o with
    wcnt := o.wcnt - gone.length
    wdie := (o.wdie - (o.wdie &&& s.waiterDies gone)) ||| s.waiterDies (s.hub.waiters.filter fun w => w.key == key) }

/-- Waiters woken in their order (R193). -/
def State.wakeAll (s : State) (o : SObj) : List Waiter → State
  | [] => s
  | w :: ws => match o.wakes w.target with
    | some st => (s.wakeOne w st o.pcode).wakeAll o ws
    | none => s.wakeAll o ws

/-- WakeCheck(O) (R193). -/
def State.wakeCheck (s : State) (key : Nat) : State :=
  let o := s.obj key
  let woken := s.hub.waiters.filter fun w => w.key == key && (o.wakes w.target).isSome
  let s1 := s.modHub fun h => { h with waiters := h.waiters.filter fun w => !(w.key == key && (o.wakes w.target).isSome) }
  let s2 := s1.wakeAll o woken
  (if woken.isEmpty then s2 else s2.countOut key woken).pokeIdle key

/-! ### Regions and their heirs (R202) -/

/-- A region, as an address user. -/
def State.regionWho (s : State) (rcb : Word) (core : Nat) : Who :=
  { core := core, rcb := rcb, tid := 0, privBase := 0, privSize := s.privateSize rcb }

/-- Entry `n` of a region's message vector table, 0 beyond it (R298, R333). -/
def State.mvtEntry (s : State) (rcb : Word) (n : Nat) : Word :=
  if n < s.mvtLen rcb then
    match s.resolve (s.regionWho rcb (s.firstCore rcb)) (s.mvt rcb + BitVec.ofNat 64 (8 * n)) .read with
    | .ok (.mem k) => BitVec.ofNat 64 (s.load k 8)
    | _ => 0
  else 0

/-- Has a region an heir vector (R202)? -/
def State.hasHeirVector (s : State) (rcb : Word) : Bool := s.trapVec rcb != 0 || s.mvtEntry rcb 0 != 0

/-- The heir of a region: the region whose supervisor task it is, or none for service firmware (R202). -/
def State.heirOf (s : State) : Nat → Word → Option Word
  | 0, _ => none
  | n + 1, r =>
    if s.rcbParent r = 0 then none
    else if !s.heirSel r && s.hasHeirVector r && s.hub.regions.contains r then some r
    else s.heirOf n (s.rcbParent r)

/-- Where an orphan notice starts (R202). -/
def State.noticePc (s : State) (rcb : Word) : Word := if s.mvtEntry rcb 0 ≠ 0 then s.mvtEntry rcb 0 else s.trapVec rcb

/-- The objects of entries that change hands tell the sweep engines of it (R257). -/
def State.pokeAll (s : State) (l : List Obl) : State := l.foldl (fun s e => match e.ref with
  | .local_ key => s.pokeIdle key
  | _ => s) s

/-- Obligations pass to the heir of region `r` with a notice; at the root, to service firmware (R202, R206). -/
def State.passToHeir (s : State) (r : Word) (tid : BitVec 48) (reason : Nat) (core : Nat) (l : List Obl) : State :=
  if l.isEmpty then s
  else match s.heirOf 64 r with
  | none => s.modHub fun h => { h with orphans := h.orphans ++ l.map fun o => { obl := o, since := s.clk } }
  | some hr =>
    let m : Msg :=
      { id := s.seq, kind := .notice, rcb := hr, pc := s.noticePc hr
        payload := [1, tid.zeroExtend 64, BitVec.ofNat 64 reason, BitVec.ofNat 64 l.length] ++ (l.map (·.addr)).take 6
        sender := none, ob := none, obls := l, core := core, fixed := false, about := tid }
    ((s.pokeAll l).modCore core fun c => { c with msgs := c.msgs ++ [m] }).bump

/-- Obligations of an activity that ran on no core pass to the heir: the notice is placed from the first core of its core set
(R202). Such an activity, a herd run or a command interpreter, is no task, and g1 of its notice is 0: the spec gives no TID for
it (DESIGN CHOICE, log 68). -/
def State.passFromNoCore (s : State) (r : Word) (reason : Nat) (l : List Obl) : State :=
  s.passToHeir r 0 reason (s.firstCore ((s.heirOf 64 r).getD 0)) l

/-! ### The completion of a region (R336) -/

/-- The active herd runs of a region told to stop (R336). -/
def stopRuns (rcb : Word) (c : Cluster) : Cluster :=
  { c with herds := c.herds.map fun h => h.map fun x =>
      if x.rcb == rcb then { x with run := x.run.map fun r => { r with stop := true, idle := false } } else x }
/-- Has a region an active herd run? -/
def State.hasRuns (s : State) (rcb : Word) : Bool :=
  s.clusters.any fun e => e.2.herds.toList.any fun h => match h with
    | some x => x.rcb == rcb && x.run.isSome
    | none => false
/-- What a region holds is freed (R336, R306). -/
def State.freeRegion (s : State) (rcb : Word) : State :=
  { s with
    cores := s.cores.map fun e => (e.1, { e.2 with
      alloc := e.2.alloc.filter fun a => a.1 != rcb
      sched := if (e.2.sched.map (·.rcb)) = some rcb then none else e.2.sched })
    clusters := s.clusters.map fun e => (e.1, { e.2 with
      herds := e.2.herds.map fun h => match h with
        | some x => if x.rcb == rcb then none else some x
        | none => none
      padOwner := if e.2.padOwner = some rcb then none else e.2.padOwner })
    hub := { s.hub with
      regions := s.hub.regions.filter fun r => r != rcb
      starts := s.hub.starts.filter fun e => e.1 != rcb } }

/-- A seat leaves a barrier whose arrival state does not hold it: by SIGNAL, or by POISON with a code (R192, R195). -/
def SObj.leave (o : SObj) (poison : Option Nat) : SObj :=
  match poison with
  | none =>
    let o1 := { o with count := o.count - 1, owed := o.owed - 1 }
    if 0 < o1.count ∧ o1.arrived = o1.count then o1.completePhase else o1
  | some c => { o with
      count := o.count - 1, owed := o.owed - 1, poisoned := true, pcode := if o.poisoned then o.pcode else c }

/-- The LAUNCH of a region completes (R336, R331). -/
def State.finishLaunch (s : State) (rcb : Word) (o : SObj) : State :=
  let rgn := s.rcbRgn rcb
  let r : BitVec 8 × Word × Word :=
    if o.poisoned then (0x01, BitVec.ofNat 64 (o.pcode * 2 ^ 24 + rgn), s.time) else (0x00, BitVec.ofNat 64 rgn, s.time)
  s.modHub fun h => { h with queues := h.queues.map fun e => (e.1, { e.2 with
    entries := e.2.entries.map fun x => if x.launch = some rcb then { x with result := some r, launch := none } else x }) }

/-- A region whose barrier nobody owes completes, and its parent after it if that was the last seat (R336). A root
region never completes (R325). -/
def State.completeRegion (s : State) : Nat → Word → State
  | 0, _ => s
  | n + 1, rcb =>
    if !s.hub.regions.contains rcb || s.rcbParent rcb == 0 then s
    else if (s.obj (barrierOf rcb)).owed ≠ 0 then s
    else if s.hasRuns rcb then { s with clusters := s.clusters.map fun e => (e.1, stopRuns rcb e.2) }
    else
      let o := s.obj (barrierOf rcb)
      let parent := s.rcbParent rcb
      let pk := barrierOf parent
      let s1 := (s.freeRegion rcb).finishLaunch rcb o
      let s2 := s1.putObj pk ((s1.obj pk).leave (if o.poisoned then some o.pcode else none))
      (s2.wakeCheck pk).completeRegion n parent

/-- The region whose completion barrier a key is. -/
def State.regionOfBarrier (s : State) (key : Nat) : Option Word := s.hub.regions.find? fun r => barrierOf r == key

/-- An object is changed at its home: the waiters are checked, and a region whose barrier it is may complete
(R182, R193, R336). -/
def State.changeObj (s : State) (key : Nat) (o : SObj) : State :=
  let s1 := (s.putObj key o).wakeCheck key
  match s1.regionOfBarrier key with
  | some r => s1.completeRegion 64 r
  | none => s1

/-! ### Discharging (R192, R194, R195) -/

/-- The effect of SIGNAL on a record and on the holder's entry (R192). -/
def signalObj (o : SObj) (e0 : Obl) (v : Nat) : SObj × Obl :=
  if o.isBarrier then
    let e := e0.sync o
    let had := decide (0 < e.ar)
    let o1 := { o with arrived := if had then o.arrived - 1 else o.arrived, count := o.count - 1 }
    let o2 := if 0 < o1.count ∧ o1.arrived = o1.count then o1.completePhase else o1
    ({ o2 with owed := o2.owed - 1 }, { e with ar := if had then e.ar - 1 else e.ar, m := e.m - 1 })
  else
    let o1 := if o.poisoned then o else o.signal v
    ({ o1 with owed := o1.owed - 1 }, { e0 with m := e0.m - 1 })

/-- The effect of POISON on a record and on the holder's entry (R195). -/
def poisonObj (o : SObj) (e0 : Obl) (code : Nat) : SObj × Obl :=
  let o1 := { o with poisoned := true, pcode := if o.poisoned then o.pcode else code }
  if o.isBarrier then
    let e := e0.sync o
    let had := decide (0 < e.ar)
    ({ o1 with arrived := if had then o.arrived - 1 else o.arrived, count := o.count - 1, owed := o.owed - 1 },
     { e with ar := if had then e.ar - 1 else e.ar, m := e.m - 1 })
  else ({ o1 with owed := o.owed - 1 }, { e0 with m := e0.m - 1 })

/-- Every obligation of an entry discharged, by SIGNAL with value 0 or by POISON (R299, R206, R207). -/
def State.dischargeAll (s : State) (e : Obl) (poison : Option Nat) : Nat → State
  | 0 => s
  | n + 1 => match e.ref with
    | .local_ key =>
      let r := match poison with
        | none => signalObj (s.obj key) e 0
        | some c => poisonObj (s.obj key) e c
      (s.changeObj key r.1).dischargeAll r.2 poison n
    | _ => s

/-- A wait withdrawn: WCNT falls (R197, R207). -/
def State.withdrawWho (s : State) (who : WaitWho) : State :=
  let gone := s.hub.waiters.filter fun w => w.who == who
  let s1 := s.modHub fun h => { h with waiters := h.waiters.filter fun w => w.who != who }
  gone.foldl (fun s w => (s.countOut w.key [w]).pokeIdle w.key) s1

/-- A wait of a task withdrawn (R197). -/
def State.withdraw (s : State) (tid : BitVec 48) : State := s.withdrawWho (.task tid)

/-- The wait of a task and its PC as they stand once the wait is withdrawn (R197). -/
def Ctx.withdrawn (c : Ctx) : Ctx := match c.wait with
  | some w => { c with wait := none, pc := w.pc }
  | none => c

/-! ### Slot claims (R340) -/

/-- Slots that a region holds on a core. -/
def Core.held (c : Core) (rcb : Word) : Nat := (c.slots.toList.filter fun sl => sl.st != .empty && sl.ctx.rcb == rcb).length
/-- Does an RDT task hold the tiles t4 to t7 of a core reserved (R152)? -/
def State.rdtOn (s : State) (c : Core) : Bool := c.slots.toList.any fun sl => sl.st != .empty && s.isRdt sl.ctx.rcb
/-- Does a task hold a tile, or is it being saved (R147)? -/
def Shape.held (h : Shape) : Bool := h.inuse || h.cfg
/-- Are the tiles t4 to t7 of a core free for an RDT task (R340)? -/
def State.upperTilesFree (s : State) (c : Core) : Bool :=
  !s.rdtOn c && [4, 5, 6, 7].all fun t => !(c.shapes[Fin.ofNat 8 t]).held
/-- The slot that a task of a region may claim on a core (R340). -/
def State.claimable (s : State) (n : Nat) (rcb : Word) : Option (Fin 16) :=
  let c := s.coreAt n
  if c.contained || decide (s.slotCap rcb ≤ c.held rcb) then none
  else if s.isRdt rcb then
    if s.upperTilesFree c then allSlots.find? fun i => decide (i.val < 8) && c.slots[i].st == .empty &&
      c.slots[Fin.ofNat 16 (i.val + 8)].st == .empty
    else none
  else allSlots.find? fun i => c.slots[i].st == .empty

/-- The state in which the trailing copy of a task starts beside its leading copy (R379): it comes to the pair of a
wait in progress itself. -/
def trailSt (st : SlotSt) (k : Cont) : SlotSt := match st, k with
  | .faulted, _ => .faulted
  | .settle, .halt | .settle, .haltSeat | .settle, .migrate .. => .ending
  | .settle, .trap .. => .faulted
  | _, _ => .ready

/-- A task takes a slot: its counters 0 and 1 start at zero (R275, R340). An RDT task takes the slot eight higher for
its trailing copy (R379). -/
def State.seat (s : State) (n : Nat) (i : Fin 16) (st : SlotSt) (c : Ctx) : State :=
  let put := fun (s : State) (i : Fin 16) (st : SlotSt) (c : Ctx) => s.modSlot n i fun sl =>
    { sl with
      st := st, urgent := false, since := s.clk, claimed := s.seq
      ctx := { c with pcnt0 := 0, pcnt1 := 0 } }
  let s1 := put s i st { c with trail := false, pairs := c.wait.isSome.toNat }
  let s2 := if s.isRdt c.rcb then
      put s1 (Fin.ofNat 16 (i.val + 8)) (trailSt st c.cont)
        { c.withdrawn with trail := true, pairs := 0, obls := [], accs := [], holdAll := [], holdRel := [], cont := .none, settleDue := false, answered := none }
    else s1
  s2.bump

/-- The size of a context area (R341). -/
def areaSize : Nat := 272 * 2 ^ 10

/-- The context area of a task that starts on a core: 272 KiB from a multiple of 4 KiB, in the stacked DRAM of the core's die
(R341; log 16). -/
def areaOf (core : Nat) (tid : BitVec 48) : Nat :=
  dieOfCore core * 2 ^ 37 + Config.contextArea tid.toNat % ((2 ^ 37 - areaSize) / 2 ^ 12) * 2 ^ 12

/-- A new task at its creation (R31): g0 to g9 from the words given, zero and Full beyond them. The spec gives no check of
a start address that is no multiple of 8: the task starts there, and the eight bytes from it are its pair (DESIGN CHOICE,
log 51). -/
def State.newTask (s : State) (core : Nat) (rcb : Word) (tid : BitVec 48) (pc : Word) (words : List Word) (k : StartKind)
    (obls : List Obl) : Ctx :=
  { Ctx.init with
    tid := tid, rgn := BitVec.ofNat 24 (s.rcbRgn rcb), rcb := rcb, mode := s.supv rcb, pc := pc
    g := Vector.ofFn fun d => if d.val < 10 then { val := words.getD d.val 0, f := true, d := false, tag := none } else GReg.init
    rnd := ((s.hub.starts.find? fun e => e.1 == rcb).map fun e => e.2.2).getD 0
    privBase := Config.privateSegment tid.toNat, privSize := BitVec.ofNat 32 (s.privateSize rcb)
    start := k, obls := obls, area := areaOf core tid }

/-- A seat is added to a region's completion barrier in the step of the claim (R337). -/
def State.addSeat (s : State) (rcb : Word) : State :=
  let o := s.obj (barrierOf rcb)
  (s.putObj (barrierOf rcb) { o with count := o.count + 1, owed := o.owed + 1 }).pokeIdle (barrierOf rcb)

/-- The entry of a seat on a region's completion barrier. -/
def State.seatObl (s : State) (rcb : Word) : Obl := newObl (barrierOf rcb) (BitVec.ofNat 64 (barrierOf rcb)) (s.obj (barrierOf rcb))

/-- The core set of a region in the order of R276: from `core` when it lies in the set, otherwise from the first. -/
def State.searchOrder (s : State) (rcb : Word) (core : Nat) : List Nat :=
  let first := s.firstCore rcb
  let n := s.numCores rcb
  let from_ := if s.inCoreSet rcb core then core - first else 0
  (List.range n).map fun k => first + (from_ + k) % n

/-- An outstanding operation of a task ends. -/
def Ctx.dropAcc (c : Ctx) (id : Nat) : Ctx := { c with accs := c.accs.filter fun a => a.id != id }

/-- The states in which an access, a register or the matrix unit parks a slot (R11). -/
def SlotSt.parked : SlotSt → Bool
  | .mem | .reg | .matrix | .tileLock => true
  | _ => false

/-- A slot that is parked goes on: `own` says that the operation that parked it has ended (R153). Where it is only to try its
pair again, one that is to stop stays, and stops once its park has ended (R385). -/
def State.unpark (s : State) (n : Nat) (i : Fin 16) (own : Bool) : State :=
  let sl := s.slotAt n i
  if sl.st.parked ∧ !(sl.ctx.accs.any (·.park)) ∧ (own || !sl.ctx.stopDue) then
    s.setSt n i sl.ctx.goesTo
  else s

/-- Every task that holds no slot on a core: queued, to be placed, or saved. -/
def Core.offSlot (c : Core) : List Ctx := (c.runq ++ c.launches).map (·.ctx) ++ c.images.map (·.ctx)

/-- The task at place `k` of a core: its slots are places 0 to 15, and its images follow. -/
def State.heldAt (s : State) (n k : Nat) : Option Ctx :=
  if k < 16 then some (s.ctxAt n (Fin.ofNat 16 k)) else (s.coreAt n).images[k - 16]?.map (·.ctx)
/-- The slot state of the task at a place. -/
def State.heldSt (s : State) (n k : Nat) : SlotSt :=
  if k < 16 then (s.slotAt n (Fin.ofNat 16 k)).st else ((s.coreAt n).images[k - 16]?.map (·.st)).getD .empty
/-- The task at a place changed. -/
def State.modHeld (s : State) (n k : Nat) (f : Ctx → Ctx) : State :=
  if k < 16 then s.modCtxAt n (Fin.ofNat 16 k) f
  else s.modCore n fun c => { c with images := c.images.modify (k - 16) fun im => { im with ctx := f im.ctx } }

/-- A living task and its core: in a slot, in a queue or saved (R200, R264). -/
def State.taskCtx (s : State) (tid : BitVec 48) : Option (Nat × Ctx) := match s.findTask tid with
  | some (n, i) => some (n, s.ctxAt n i)
  | none => s.cores.findSome? fun e => (e.2.offSlot.find? fun c => c.tid == tid).map fun c => (e.1, c)

/-- The tasks off the slots of a core changed where they have a TID. -/
def Core.modOff (c : Core) (tid : BitVec 48) (f : Ctx → Ctx) : Core :=
  let kid := fun (k : Kid) => if k.ctx.tid == tid then { k with ctx := f k.ctx } else k
  { c with
    runq := c.runq.map kid, launches := c.launches.map kid
    images := c.images.map fun im => if im.ctx.tid == tid then { im with ctx := f im.ctx } else im }

/-- A living task changed, wherever it is. -/
def State.modTask (s : State) (tid : BitVec 48) (f : Ctx → Ctx) : State := match s.findTask tid with
  | some (n, i) => s.modCtxAt n i f
  | none => { s with cores := s.cores.map fun e => (e.1, e.2.modOff tid f) }

/-- The slots of a core that wait for the matrix unit are tried again (R137, R138); one that is to stop stays, and stops once
its park has ended (R385). -/
def State.wakeMatrix (s : State) (n : Nat) : State := allSlots.foldl (fun s i =>
  if ((s.slotAt n i).st = .matrix ∨ (s.slotAt n i).st = .tileLock) ∧ !(s.ctxAt n i).stopDue then s.setSt n i .ready else s) s

/-- An entry joined to a registry: arrivals at a barrier count in its current phase only (R192, R204). -/
def State.mergeObl (s : State) (acc : List Obl) (o : Obl) : List Obl :=
  let now := fun (e : Obl) => match e.ref with
    | .local_ key => if e.kind = 2 then e.sync (s.obj key) else e
    | _ => e
  match findObl acc o.ref with
  | some e => putObl acc { (now e) with m := e.m + o.m, ar := (now e).ar + (now o).ar }
  | none => putObl acc o

/-- A message starts its task (R218, R337, R202). A carried obligation moves from the sender at this step, and the seat of a
lost task leaves its barrier, poisoned (R207). The seat that the task takes joins what a notice passes even where that makes
4,097 entries: the spec gives this no outcome (DESIGN CHOICE, log 69). -/
def State.startMsg (s : State) (m : Msg) (n : Nat) (i : Fin 16) : State :=
  let s1 := s.addSeat m.rcb
  let seat := s1.seatObl m.rcb
  let (s2, carried) := match m.sender, m.ob with
    | some tid, some (.local_ key) => match s1.taskCtx tid with
      | some (_, c) => match findObl c.obls (.local_ key) with
        | some e =>
          let r := moveObl c.obls [] e (s1.obj key)
          ((s1.pokeIdle key).modTask tid fun c => { c with obls := r.1 }, r.2)
        | none => (s1, [])
      | none => (s1, [])
    | _, _ => (s1, [])
  let s3 := m.seats.foldl (fun s e => s.dischargeAll e (some 0xFD) e.m) (s2.seat n i .ready { s2.newTask n m.rcb (BitVec.ofNat 48 s2.seq) m.pc m.payload m.kind ((seat :: carried).foldl s2.mergeObl m.obls) with
    about := m.about, aboutNo := m.aboutNo }).bump
  match m.sender with
  | some tid =>
    let s4 := s3.modTask tid fun c => { c with accs := c.accs.filter fun a => a.op != .send m.id }
    match s4.findTask tid with
    | some (cn, ci) => s4.unpark cn ci true
    | none => s4
  | none => s3

/-- Whether the tiles that a saved task holds are free on its core (R149); t4 to t7 are not while an RDT task holds them
reserved (R152). -/
def State.tilesFree (s : State) (c : Core) (im : Ctx) : Bool :=
  im.saved.zipIdx.all fun e => !e.1.held ||
    (!(c.shapes[Fin.ofNat 8 e.2]).held && !(decide (4 ≤ e.2) && !s.isRdt im.rcb && s.rdtOn c))

/-- The saved tiles of a task written back to its core (R149). -/
def restoreTiles (c : Core) (i : Fin 16) (rdt : Bool) (saved : List SavedTile) : Core :=
  saved.zipIdx.foldl (fun c e =>
    if e.1.held then
      let t : Fin 8 := Fin.ofNat 8 e.2
      let data := e.1.data.getD TileData.zero
      let kept : TileData := Vector.ofFn fun r => Vector.ofFn fun k =>
        if r.val ≤ e.1.shape.rows.toNat ∧ k.val ≤ e.1.shape.cols.toNat then data[r][k] else 0
      { c with tiles := c.tiles.set t kept
               shapes := c.shapes.set t { e.1.shape with owner := BitVec.ofNat 4 (if rdt ∧ 4 ≤ t.val then i.val + 8 else i.val), inuse := true, cfg := true, dirty := false }
               zero := c.zero.set t e.1.data.isNone }
    else c) c

/-- The nearest region from `r` upward that has a trap vector, among the active ones (R276, R337). -/
def State.trapRegion (s : State) : Nat → Word → Option Word
  | 0, _ => none
  | n + 1, r =>
    if r = 0 then none
    else if s.trapVec r ≠ 0 ∧ s.hub.regions.contains r then some r
    else s.trapRegion n (s.rcbParent r)

/-- The priority of a waiter for a slot. -/
def bestPrio (l : List Nat) : Nat := l.foldl max 0

/-- The saved task that has been resumable longest (R340). -/
def oldestImage : List Image → Option Image
  | [] => none
  | m :: l => match oldestImage l with
    | none => some m
    | some x => if x.seq < m.seq then some x else some m

/-- The saved tasks and the queued ones that may claim a slot of a core now (R340). -/
def State.imagesFor (s : State) (n : Nat) : List Image :=
  (s.coreAt n).images.filter fun im => im.ready && (s.claimable n im.ctx.rcb).isSome && s.tilesFree (s.coreAt n) im.ctx
def State.kidsFor (s : State) (n : Nat) : List Kid :=
  ((s.coreAt n).runq ++ (s.coreAt n).launches).filter fun k => (s.claimable n k.ctx.rcb).isSome

/-- The first core that a message may start its task on: its core alone for a SEND, the search of R276 otherwise. -/
def State.msgCore (s : State) (m : Msg) : Option Nat :=
  if s.hub.regions.contains m.rcb then
    (if m.fixed then [m.core] else s.searchOrder m.rcb m.core).find? fun n => (s.claimable n m.rcb).isSome
  else none

/-- The messages of the device that may claim a slot of a core now, the oldest first within a core (R217, R276). -/
def State.msgsFor (s : State) (n : Nat) : List Msg :=
  s.cores.flatMap fun e => e.2.msgs.filter fun m => decide (s.msgCore m = some n)

/-- The oldest of some messages. -/
def oldestMsg : List Msg → Option Msg
  | [] => none
  | m :: l => match oldestMsg l with
    | none => some m
    | some x => if x.id < m.id then some x else some m

/-- The priorities of those who may claim a slot of a core. -/
def State.prioritiesFor (s : State) (n : Nat) : List Nat :=
  (s.msgsFor n).map (fun m => s.rcbPrio m.rcb) ++ (s.imagesFor n).map (fun m => s.rcbPrio m.ctx.rcb) ++
    (s.kidsFor n).map fun k => s.rcbPrio k.ctx.rcb

/-- A trap record or an orphan notice that names a region which has completed goes to the trap vector or the heir of its
nearest active ancestor (R337); what no region takes is left to the root (R202, R276). -/
def State.redirected (s : State) (m : Msg) : Option Msg :=
  if s.hub.regions.contains m.rcb then some m
  else match m.kind with
    | .notice => (s.heirOf 64 m.rcb).map fun r => { m with rcb := r, pc := s.noticePc r }
    | .trapRecord => (s.trapRegion 64 m.rcb).map fun r => { m with rcb := r, pc := s.trapVec r }
    | _ => some m

/-- The messages of a core that wait for a region which has completed are redirected (R337); with those that no region takes,
service firmware has the obligations, and the seat of a lost task leaves its barrier (R202, R207). -/
def State.redirect (s : State) (n : Nat) : State :=
  let lost := (s.coreAt n).msgs.filter fun m => (s.redirected m).isNone
  let s1 := (s.modCore n fun c => { c with msgs := c.msgs.filterMap s.redirected }).modHub fun h => { h with
    orphans := h.orphans ++ lost.flatMap fun m => m.obls.map fun o => { obl := o, since := s.clk }
    notices := h.notices ++ (lost.filter fun m => m.kind == .trapRecord).map .trapToService }
  (lost.flatMap (·.seats)).foldl (fun s e => s.dischargeAll e (some 0xFD) e.m) s1

/-- One slot claim on a core (R340): the highest priority first, then messages, resumable tasks and the run queue, the
oldest first. Nothing changes when no waiter can claim a slot. -/
def State.claim (s : State) (n : Nat) : State :=
  let p := bestPrio (s.prioritiesFor n)
  match oldestMsg ((s.msgsFor n).filter fun m => s.rcbPrio m.rcb == p) with
  | some m => match s.claimable n m.rcb with
    | some i =>
      let s1 := s.startMsg m n i
      { s1 with cores := s1.cores.map fun e => (e.1, { e.2 with msgs := e.2.msgs.filter fun x => x.id != m.id }) }
    | none => s
  | none => match oldestImage ((s.imagesFor n).filter fun im => s.rcbPrio im.ctx.rcb == p) with
    | some im => match s.claimable n im.ctx.rcb with
      | some i =>
        let s1 := s.seat n i im.st im.ctx
        (s1.modCore n fun c => { restoreTiles c i (s.isRdt im.ctx.rcb) im.ctx.saved with images := c.images.filter fun x => x.ctx.tid != im.ctx.tid }).unpark n i false
      | none => s
    | none => match (s.kidsFor n).find? fun k => s.rcbPrio k.ctx.rcb == p with
      | some k => match s.claimable n k.ctx.rcb with
        | some i =>
          let s1 := (s.seat n i .ready k.ctx).modCore n fun c => { c with
            runq := c.runq.filter fun x => x.ctx.tid != k.ctx.tid
            launches := c.launches.filter fun x => x.ctx.tid != k.ctx.tid }
          match k.migrating with
          | some (on, oi) => (s1.setSt on oi .empty).modCtxAt on oi fun _ => Ctx.init
          | none => s1
        | none => s
      | none => s

/-! ### A task ends -/

/-- The tiles that a slot holds, or that are being saved from it, are released (R120, R141). -/
def releaseTiles (i : Fin 16) (c : Core) : Core :=
  (List.range 8).foldl (fun c t =>
    let t : Fin 8 := Fin.ofNat 8 t
    let sh := c.shapes[t]
    if sh.held && sh.owner == BitVec.ofNat 4 i.val then
      { c with tiles := c.tiles.set t TileData.zero, shapes := c.shapes.set t Shape.init, zero := c.zero.set t true }
    else c) c

/-- The slot of a task becomes empty, and its trailing copy's with it, the load-value queue and the comparator too
(R120, R379). -/
def State.vacate (s : State) (n : Nat) (i : Fin 16) : State :=
  let s0 := (s.setSt n i .empty).modSlot n i fun sl => { sl with ctx := Ctx.init }
  let s1 := s0.modCore n fun c => { c with
    lvq := c.lvq.filter fun e => e.1 != i, cmp := c.cmp.filter fun e => e.slot != i, crcs := c.crcs.filter fun e => e.1 != i }
  if s.isRdt (s.ctxAt n i).rcb && decide (i.val < 8) then
    let j : Fin 16 := Fin.ofNat 16 (i.val + 8)
    ((s1.modCore n (releaseTiles j)).setSt n j .empty).modSlot n j fun sl => { sl with ctx := Ctx.init }
  else s1

/-- An entry on an object of this device: a channel's entry ends with its channel (R223). -/
def Obl.isLocal (o : Obl) : Bool := match o.ref with
  | .local_ _ => true
  | _ => false

/-- Entries of a registry that are seats on the region's own completion barrier. -/
def ownSeat (rcb : Word) (o : Obl) : Bool := o.ref == .local_ (barrierOf rcb)

end Sys2Proof.Machine
end

