-- ==== Sys2Proof/WellFormed.lean ====
section
/-! DEFINITION. Well-formed instructions: the limits of R53, R68 to R74 and R238 that the constructors' types do not
already carry. An event is no encoding and has no limit. -/

namespace Sys2Proof

/-- An ordinary access size of an atomic (R53): the unsigned codes belong to AMIN and AMAX. -/
def ASize.signed : ASize → Bool
  | .w | .d => true
  | .wu | .du => false

/-- Lanes of an element size (R122). -/
def ESize.lanes : ESize → Nat
  | .w => 16
  | .h => 32
  | .b => 64

/-- The limit of a VCVT's vb field (R132): a register for a narrowing conversion, zero for one of equal width, the
part number for a widening one. -/
def VCvt.fieldLimit : VCvt → Nat
  | .f32f16 | .f32bf16 | .f32e5m2 | .f32e4m3 | .f32e2m1 | .f32i8 => 8
  | .f32i32 | .i32f32 => 1
  | .f16f32 | .bf16f32 => 2
  | .e5m2f32 | .e4m3f32 | .i8f32 => 4
  | .e2m1f32 => 8

/-- A register that can be a stream port (R16, R71). -/
def isPortReg (g : GIx) : Bool := 10 ≤ g.val && g.val ≤ 13

/-- The instruction is within the limits of its encoding. -/
def Instr.wellFormed : Instr → Bool
  | .lds sz .. | .ldsWide sz .. => sz != .d
  | .aadd sz .. | .aand sz .. | .aor sz .. | .axor sz .. | .aswp sz .. => sz.signed
  | .acas sz _ _ _ _ v => sz.signed && v.val != 15
  | .sbind d _ | .sunbind d => isPortReg d
  | .sstat _ a => isPortReg a
  | .tplane _ _ a _ => a.val != 15
  | .cpyqWt a | .cpyqBz _ a | .iordWt a | .iordBz _ a => a.val ≤ 12
  | .mbrd d _ => d.val != 15
  | .send n _ b | .sendOb n _ _ b => b.val + n.val ≤ 15
  | .bfx _ _ _ q n | .bfi _ _ q n => q.toNat + n.toNat ≤ 63
  | .fcvt f c _ _ => match c with
    | .toF32 | .fromF32 => f != .f32
    | _ => true
  | .vext e _ _ lane | .vins e _ _ lane => lane.toNat < e.lanes
  | .vcvt c _ _ x => x.val < c.fieldLimit
  | .cflt code => code.toNat < 0xF0
  | _ => true

end Sys2Proof
end

