-- ==== Sys2Proof/Machine/Memory.lean ====
section
/-! DEFINITION. Memory access, stream and atomic instructions, and the completion of accesses (08, R153 to R171,
R177, R178). -/

namespace Sys2Proof.Machine

/-! ### When an access issues (R153, R154, R165, R167) -/

/-- Is a relaxed access, atomic or reduction, which the limit of 16 counts (R154)? -/
def Access.counted (a : Access) : Bool := match a.op with
  | .tile _ _ | .matrix _ => false
  | _ => true

/-- Is an access of the list outstanding? -/
def Ctx.anyOut (c : Ctx) (l : List Nat) : Bool := c.accs.any fun a => l.contains a.id

/-- Is an element of a write port that the list names still to be written (R167)? -/
def Ctx.anyDue (c : Ctx) (l : List Nat) : Bool := c.due.any fun e => l.contains e

/-- Does a FENCE hold back any later access (R167)? -/
def State.heldAll (s : State) : Bool := s.ctx.anyOut s.ctx.holdAll || s.ctx.anyDue s.ctx.holdAllPorts
/-- Does a FENCE hold back later stores, atomics and commands (R167)? -/
def State.heldRel (s : State) : Bool := s.ctx.anyOut s.ctx.holdRel || s.ctx.anyDue s.ctx.holdRelPorts

/-- A relaxed access waits for the limit of R154, and for what a FENCE holds it back from (R167); `st` marks a store or
an atomic. -/
def State.relaxedBlocked (s : State) (st : Bool) : Bool :=
  decide (16 ≤ (s.ctx.accs.filter (·.counted)).length) || s.heldAll || (st && s.heldRel)

/-- The aligned 8-byte words that `n` bytes at a home touch (R154). -/
def Home.words (n : Nat) : Home → List (Option Nat × Nat)
  | .mem k => (List.range ((k % 8 + n + 7) / 8)).map fun i => (none, k / 8 + i)
  | .fab p o => (List.range ((o.toNat % 8 + n + 7) / 8)).map fun i => (some p.toNat, o.toNat / 8 + i)

/-- The words that an outstanding access touches. -/
def AccOp.words : AccOp → List (Option Nat × Nat)
  | .loadG _ n _ h _ => h.words n
  | .loadV _ n els _ => els.flatMap fun e => e.2.words n
  | .store n els _ _ => els.flatMap fun e => e.1.words n
  | .atomic _ op h _ => h.words op.w
  | _ => []

/-- The words that a queued tile access touches. -/
def Core.tileWords (c : Core) (id : Nat) : List (Option Nat × Nat) := match c.mxq.find? fun r => r.id == id with
  | some r => match r.op with
    | .tld _ n els _ _ | .tst _ n els _ => els.flatMap fun e => match e with
      | some h => h.words n
      | none => []
    | _ => []
  | none => []

/-- The words that an outstanding operation of the issuing core's slot touches. -/
def Core.accWords (c : Core) (a : Access) : List (Option Nat × Nat) := match a.op with
  | .tile id _ => c.tileWords id
  | x => x.words

/-- The homes of those addresses that lie somewhere. -/
def State.reach (s : State) (w : Who) (k : AccKind) (ps : List Word) : List Home :=
  ps.filterMap fun p => match s.resolve w p k with
    | .ok h => some h
    | .error _ => none

/-- The register that an operation fills. -/
def AccOp.dstG : AccOp → Option GIx
  | .loadG d _ _ _ _ | .atomic d _ _ _ | .reduce d _ _ | .wcopen d _ _ _ => some d
  | _ => none

/-- The words of the elements that a write port is still to write, one that an outstanding load will push among them; of
those whose number is in `only`, where that is given (R169, R285). -/
def Ctx.portWords (c : Ctx) (s : State) (w : Who) (only : Option (List Nat)) : List (Option Nat × Nat) :=
  (List.range 4).flatMap fun k => match c.ports[Fin.ofNat 4 k] with
    | none => []
    | some q =>
      if !q.wr then []
      else
        let ids := q.fifo.map (·.id) ++
          (c.accs.filter fun a => a.op.dstG == some (Fin.ofNat 16 (10 + k))).filterMap fun a => a.push.map (·.id)
        let due := ids.zipIdx.filter fun e => only.all fun l => l.contains e.1
        (s.reach w .write (due.map fun e => q.elem (q.moved + e.2))).flatMap fun h => h.words (2 ^ q.size)

/-- A relaxed access of elements of `n` bytes waits for an outstanding one that shares a word with it (R154), and for an
element of a write port that does (R285). -/
def State.overlaps (s : State) (n : Nat) (hs : List Home) : Bool :=
  let mine := hs.flatMap fun h => h.words n
  (s.ctx.accs.any fun a => (s.cur.accWords a).any fun w => mine.contains w) ||
    (s.ctx.portWords s s.who none).any fun w => mine.contains w

/-! ### Starting an access -/

/-- The destination of an access becomes Pending (R14). -/
def Ctx.pendFor (c : Ctx) (op : AccOp) (id : Nat) : Ctx := match op with
  | .loadG d _ _ _ _ | .atomic d _ _ _ | .reduce d _ _ | .wcopen d _ _ _ => c.pendG d id
  | .loadV d _ _ _ => c.pendV d id
  | _ => c

/-- The number of an atomic operation in ARG (log 18). -/
def AtomK.code : AtomK → Nat
  | .add => 0 | .and => 1 | .or => 2 | .xor => 3 | .min => 4 | .max => 5 | .swp => 6 | .cas => 7 | .fadd => 8

/-- An ATOM with its operands in 16 bytes of payload (R160, R349, R350; log 18): ARG bit 10 says that it works on 8 bytes. -/
def atomPkt (core : Nat) (peer : BitVec 12) (off : BitVec 48) (op : AtomOp) (tag : BitVec 16) : Packet :=
  { Packet.zero with
    typ := 0x05, dst := peer, srcEp := epOf core, rtag := tag, offset := off, bytes := 16
    arg := BitVec.ofNat 40 (op.k.code + op.signed.toNat * 16 + op.rnd.toNat * 32 + op.w / 8 * 2 ^ 10)
    payload := (List.range 16).map fun i => BitVec.ofNat 8 ((op.x.toNat + 2 ^ 64 * op.y.toNat) / 2 ^ (8 * i)) }

/-- What an access sends to peers when it issues (R160). -/
def State.sendFor (s : State) (core : Nat) (op : AccOp) (id : Nat) : State := match op with
  | .loadG _ n _ (.fab p o) _ => s.sendPkt (readPkt core p o n (rtagOf id 0))
  | .loadV _ n els _ => els.foldl (fun s e => match e.2 with
      | .fab p o => s.sendPkt (readPkt core p o n (rtagOf id e.1))
      | _ => s) s
  | .atomic _ a (.fab p o) _ => s.sendPkt (atomPkt core p o a (rtagOf id 0))
  | .ask (.peer p o n) => s.sendPkt (readPkt core p o n (rtagOf id 0))
  | _ => s

/-- An access issues: it is outstanding under a fresh tag, its destination is Pending, PCNT 3 counts it (R13, R153,
R275). -/
def State.startAcc (s : State) (op : AccOp) (park : Bool) : State :=
  let id := s.seq
  let lv := if s.rdt && !s.ctx.trail then (match op with
    | .loadG .. | .loadV .. | .atomic .. | .wcopen .. | .reduce .. => some s.ctx.rdtLoads
    | _ => none) else none
  let push := if op.dstG.any s.ctx.pushes then some (s.ctx.elem 0 s.ctx.pc s.pair) else none
  let a : Access := { id := id, pc := s.ctx.pc, pair := s.pair, op := op, park := park, resends := 0, lv := lv, rid := id, done := 0, bad := none, push := push }
  let s1 := s.modCtx fun c => { c.pendFor op id with
    accs := c.accs ++ [a], pushed := c.pushed + 1, rdtLoads := if lv.isSome then c.rdtLoads + 1 else c.rdtLoads }
  ((s1.sendFor s.core op id).modCur fun c => { c with pcnt3 := c.pcnt3 + 1 }).bump

/-- The slot parks in state 3 behind an access that it has issued (R153). -/
def parkAfter (park : Bool) (s : State) : State := if park then s.enter .mem else s

/-- A plain or relaxed access of elements of `n` bytes at the homes `hs`, whose checks come to `r`: it parks while an
earlier access holds it back, or while no result tag is free (R348), and is checked once it may go (R50, R153, R154). The
trailing copy of an RDT task accesses nothing and so checks nothing: it takes a load's value from the load-value queue, and its
stores have no effect of their own (R380, R381; log 24). -/
def accessPlan (s : State) (x st : Bool) (n : Nat) (hs : List Home) (r : Except Trap AccOp) (take : List Word → State → State) :
    Plan :=
  if s.rdt && s.ctx.trail then (if st then Plan.nop else outside s [] take)
  else if s.tagBusy || (if x then s.relaxedBlocked st || s.overlaps n hs else s.plainBlocked) || (s.rdt && !st && s.lvFull) then
    .park .mem
  else match r with
    | .error t => .trap t
    | .ok op => .go (fun t => t.startAcc op (!x)) fun _ t => parkAfter (!x) t

/-- Access size in bytes (R157). -/
def Size.bytes : Size → Nat
  | .b => 1 | .h => 2 | .w => 4 | .d => 8

/-- A value of `n` bytes extended to 64 bits. -/
def extend (n : Nat) (sx : Bool) (v : Nat) : Word := if sx then (BitVec.ofNat (8 * n) v).signExtend 64 else BitVec.ofNat 64 (v % 2 ^ (8 * n))

/-- A scalar load (R157). -/
def loadPlan (s : State) (n : Nat) (sx x : Bool) (d base : GIx) (off : Word) : Plan :=
  gated s [base] [] [d] [] (accessPlan s x false n (s.reach s.who .read [s.gv base + off])
    ((s.element s.who (s.gv base + off) n n .read).map fun h => .loadG d n sx h (s.gv base + off))
    fun ws t => t.takeG d ws fun w => extend n sx w.toNat)

/-! ### Fabric stores (R160, R222) -/

/-- The channel that a handle names, if the task opened it. -/
def State.chanOf (s : State) (h : Nat) : Option Chan := (tabGet (s.dieAt (h / 1024 % 4)).chans (h % 1024)).bind fun c =>
  if c.tid == s.ctx.tid && c.live then some c else none
/-- A channel changed. -/
def State.modChan (s : State) (h : Nat) (f : Chan → Chan) : State := s.modDie (h / 1024 % 4) fun d => match tabGet d.chans (h % 1024) with
  | some c => { d with chans := tabPut d.chans (h % 1024) (f c) }
  | none => d

/-- The fabric elements of a store. -/
def fabCount (hs : List Home) : Nat := (hs.filter fun h => match h with | .fab _ _ => true | _ => false).length

/-- May the channel that WCH names count these stores (R160, R222)? -/
def State.countable (s : State) (hs : List Home) : Bool :=
  let n := fabCount hs
  n == 0 || (s.ctx.wch.getLsbD 15 && match s.chanOf (s.ctx.wch.toNat % 4096) with
    | some c => !c.failed && !c.group && decide (c.unrel + n < 2 ^ 23) && hs.all fun h => match h with
      | .fab p _ => p == c.dest
      | _ => true
    | none => false)

/-- The stores counted on the channel that WCH names. -/
def State.countStores (s : State) (hs : List Home) : State :=
  let n := fabCount hs
  if n = 0 then s
  else s.modChan (s.ctx.wch.toNat % 4096) fun c => { c with unrel := c.unrel + n, counted := c.counted + BitVec.ofNat 24 n }

/-- A store's checks after its addresses: a frozen weight store, then the channel (R160, R162). The fault gives the
address of the first such element (R276). That WEIGHT_WRITE comes after the addresses of every element, where a TST finds both
element by element, is the model's choice: the spec gives no order (DESIGN CHOICE, log 66). -/
def storeChecks (s : State) (ps : List Word) (hs : List Home) : Option Trap :=
  let addr := fun (bad : Home → Bool) => (((ps.zip hs).find? fun e => bad e.2).map (·.1)).getD 0
  if hs.any (s.frozen s.core) then some (Trap.at_ Cause.weightWrite (addr (s.frozen s.core)))
  else if !s.countable hs then some (Trap.at_ Cause.channel (addr fun h => match h with | .fab _ _ => true | _ => false))
  else none

/-- A store of elements of `n` bytes: the addresses in lane order, and their data (R157, R158). -/
def storeOp (s : State) (n : Nat) (ps : List Word) (data : List Nat) : Except Trap AccOp :=
  match s.elements s.who n .write ps with
  | .error t => .error t
  | .ok hs => match storeChecks s ps hs with
    | some t => .error t
    | none => .ok (.store n (hs.zip data) s.ctx.wch ps)

/-- The homes of a store's elements. -/
def AccOp.homes : AccOp → List Home
  | .store _ els _ _ => els.map (·.1)
  | _ => []

/-- A store of elements of `n` bytes behind its gates; it is counted on its channel as it issues (R160). -/
def storePlan (s : State) (x : Bool) (gs : List GIx) (vs : List VIx) (n : Nat) (ps : List Word) (data : List Nat) : Plan :=
  let r := storeOp s n ps data
  gated s gs vs [] [] (match accessPlan s x true n (s.reach s.who .write ps) r fun _ t => t with
    | .commit q now after => .commit q (fun t => now (t.countStores (match r with | .ok op => op.homes | .error _ => []))) after
    | p => p)

/-- The wide offset (R157). -/
def wideOff (lit : BitVec 32) : Word := lit.signExtend 64
/-- The narrow offset (R157). -/
def narrowOff (off : BitVec 8) (n : Nat) : Word := off.signExtend 64 * BitVec.ofNat 64 n

/-- R157. -/
def planLd (sz : Size) (x : Bool) (d base : GIx) (off : BitVec 8) (s : State) : Plan :=
  loadPlan s (Size.bytes sz) false x d base (narrowOff off (Size.bytes sz))
/-- R157. -/
def planLdWide (sz : Size) (x : Bool) (d base : GIx) (lit : BitVec 32) (s : State) : Plan :=
  loadPlan s (Size.bytes sz) false x d base (wideOff lit)
/-- R157. -/
def planLds (sz : Size) (x : Bool) (d base : GIx) (off : BitVec 8) (s : State) : Plan :=
  loadPlan s (Size.bytes sz) true x d base (narrowOff off (Size.bytes sz))
/-- R157. -/
def planLdsWide (sz : Size) (x : Bool) (d base : GIx) (lit : BitVec 32) (s : State) : Plan :=
  loadPlan s (Size.bytes sz) true x d base (wideOff lit)
/-- R157. -/
def planSt (sz : Size) (x : Bool) (d base : GIx) (off : BitVec 8) (s : State) : Plan :=
  storePlan s x [base, d] [] (Size.bytes sz) [s.gv base + narrowOff off (Size.bytes sz)] [(s.gv d).toNat]
/-- R157. -/
def planStWide (sz : Size) (x : Bool) (d base : GIx) (lit : BitVec 32) (s : State) : Plan :=
  storePlan s x [base, d] [] (Size.bytes sz) [s.gv base + wideOff lit] [(s.gv d).toNat]

/-- A vector register from the words of the load-value queue. -/
def vecOfWords (ws : List Word) : VWord := ofLanes64 ws
where ofLanes64 (ws : List Word) : VWord := BitVec.ofNat 512 (ws.foldr (fun w a => w.toNat + 2 ^ 64 * a) 0)

/-- The elements of a vector load of `n` bytes each at the homes `hs`, with the addresses that the program gave. The spec does
not give the element of an LDV, of which R156 speaks: it is read in 4-byte lanes, one from a peer in one READ (DESIGN CHOICE,
log 65). -/
def loadVOp (d : VIx) (n : Nat) (hs : List Home) (ps : List Word) : AccOp := match n, hs with
  | 64, [.mem k] => .loadV d 4 ((List.range 16).map fun j => (j, .mem (k + 4 * j))) (List.replicate 16 (ps.headD 0))
  | _, _ => .loadV d n ((List.range hs.length).zip hs) ps

/-- A vector load: elements of `n` bytes, lane 0 first (R157 to R159). -/
def loadVPlan (s : State) (n : Nat) (x : Bool) (d : VIx) (gs : List GIx) (vs : List VIx) (ps : List Word) : Plan :=
  gated s gs vs [] [d] (accessPlan s x false n (s.reach s.who .read ps)
    ((s.elements s.who n .read ps).map fun hs => loadVOp d n hs ps)
    fun ws t => if ws.isEmpty then t.modCtx (·.killV d) else t.writeV d (vecOfWords ws))

/-- R157. -/
def planLdv (x : Bool) (d : VIx) (base : GIx) (off : BitVec 8) (s : State) : Plan :=
  loadVPlan s 64 x d [base] [] [s.gv base + narrowOff off 64]
/-- R157. -/
def planLdvWide (x : Bool) (d : VIx) (base : GIx) (lit : BitVec 32) (s : State) : Plan :=
  loadVPlan s 64 x d [base] [] [s.gv base + wideOff lit]
/-- R157. -/
def planStv (x : Bool) (d : VIx) (base : GIx) (off : BitVec 8) (s : State) : Plan :=
  storePlan s x [base] [d] 64 [s.gv base + narrowOff off 64] [(s.vv d).toNat]
/-- R157. -/
def planStvWide (x : Bool) (d : VIx) (base : GIx) (lit : BitVec 32) (s : State) : Plan :=
  storePlan s x [base] [d] 64 [s.gv base + wideOff lit] [(s.vv d).toNat]

/-- Bytes of an element. -/
def ESize.bytes : ESize → Nat
  | .w => 4 | .h => 2 | .b => 1
/-- Lane `k` of elements of `n` bytes. -/
def vlane (n : Nat) (v : VWord) (k : Nat) : Nat := v.toNat / 2 ^ (8 * n * k) % 2 ^ (8 * n)
/-- All lanes of elements of `n` bytes. -/
def vlanes (n : Nat) (v : VWord) : List Nat := (List.range (64 / n)).map (vlane n v)
/-- The strided addresses (R158). -/
def strided (n : Nat) (base stride : Word) : List Word := (List.range (64 / n)).map fun k => base + BitVec.ofNat 64 k * stride
/-- The indexed addresses (R159). -/
def indexed (n : Nat) (base : Word) (ix : VWord) : List Word := (vlanes n ix).map fun k => base + BitVec.ofNat 64 (k * n)

/-- R158. -/
def planLdvs (e : ESize) (x : Bool) (d : VIx) (a b : GIx) (s : State) : Plan :=
  loadVPlan s (ESize.bytes e) x d [a, b] [] (strided (ESize.bytes e) (s.gv a) (s.gv b))
/-- R158. -/
def planStvs (e : ESize) (x : Bool) (d : VIx) (a b : GIx) (s : State) : Plan :=
  storePlan s x [a, b] [d] (ESize.bytes e) (strided (ESize.bytes e) (s.gv a) (s.gv b)) (vlanes (ESize.bytes e) (s.vv d))
/-- R159. -/
def planVgath (e : ESize) (x : Bool) (d : VIx) (a : GIx) (b : VIx) (s : State) : Plan :=
  loadVPlan s (ESize.bytes e) x d [a] [b] (indexed (ESize.bytes e) (s.gv a) (s.vv b))
/-- R159. -/
def planVscat (e : ESize) (x : Bool) (d : VIx) (a : GIx) (b : VIx) (s : State) : Plan :=
  storePlan s x [a] [d, b] (ESize.bytes e) (indexed (ESize.bytes e) (s.gv a) (s.vv b)) (vlanes (ESize.bytes e) (s.vv d))

/-! ### Atomics (R163 to R166) -/

/-- Width of an atomic (R164). -/
def ASize.width : ASize → Nat
  | .w | .wu => 4
  | .d | .du => 8

/-- The order rules of R165: does the atomic wait for every earlier access, and does the slot park behind it? -/
def orderRel : AOrder → Bool
  | .rel | .ar => true
  | _ => false
def orderAcq : AOrder → Bool
  | .acq | .ar => true
  | _ => false

/-- May atomics act at a home (R166)? -/
def atomicHome : Home → Bool
  | .fab _ _ => true
  | .mem k => match spaceOf k with
    | .pad _ | .weight _ | .host => false
    | _ => true

/-- Does an atomic at an address fall outside its scope (R165)? -/
def State.outsideScope (s : State) (sc : Scope) (p : Word) : Bool := match s.resolve s.who p .write with
  | .ok h => !inScope s.core sc h
  | .error _ => false

/-- An atomic with its operands (R164, R165): it parks while an earlier access holds it back, and is checked once it does
not (R50). -/
def atomicPlan (s : State) (sc : Scope) (o : AOrder) (d addr : GIx) (gs : List GIx) (op : AtomOp) : Plan :=
  let p := s.gv addr
  let scopex := s.outsideScope sc p
  let o' := if scopex then .rlx else o
  gated s (addr :: gs) [] [d] [] (
    if s.rdt && s.ctx.trail then
      outside s [] fun ws t => (t.takeG d ws id).raise ((ws.getD 1 0).truncate 9 ||| flagIf scopex Flag.scopex)
    else if s.tagBusy || (orderRel o' && s.plainBlocked) || s.relaxedBlocked true || s.overlaps op.w (s.reach s.who .write [p]) ||
      (s.rdt && s.lvFull) then .park .mem
    else match s.element s.who p op.w op.w .write with
    | .error t => .trap t
    | .ok h =>
      if !atomicHome h then .trap (Trap.at_ Cause.protection p)
      else .go (fun t => (t.startAcc (.atomic d op h p) (orderAcq o')).raise (flagIf scopex Flag.scopex)) fun _ t => parkAfter (orderAcq o') t)

/-- An atomic of format CA. -/
def atomOp (s : State) (k : AtomK) (sz : ASize) (v : GIx) : AtomOp :=
  { k := k, w := ASize.width sz, signed := sz.signed, x := s.gv v, y := 0, rnd := s.ctx.rnd }

/-- R163, R164. -/
def planAadd (sz : ASize) (sc : Scope) (o : AOrder) (d addr v : GIx) (s : State) : Plan := atomicPlan s sc o d addr [v] (atomOp s .add sz v)
/-- R163, R164. -/
def planAand (sz : ASize) (sc : Scope) (o : AOrder) (d addr v : GIx) (s : State) : Plan := atomicPlan s sc o d addr [v] (atomOp s .and sz v)
/-- R163, R164. -/
def planAor (sz : ASize) (sc : Scope) (o : AOrder) (d addr v : GIx) (s : State) : Plan := atomicPlan s sc o d addr [v] (atomOp s .or sz v)
/-- R163, R164. -/
def planAxor (sz : ASize) (sc : Scope) (o : AOrder) (d addr v : GIx) (s : State) : Plan := atomicPlan s sc o d addr [v] (atomOp s .xor sz v)
/-- R163, R164. -/
def planAmin (sz : ASize) (sc : Scope) (o : AOrder) (d addr v : GIx) (s : State) : Plan := atomicPlan s sc o d addr [v] (atomOp s .min sz v)
/-- R163, R164. -/
def planAmax (sz : ASize) (sc : Scope) (o : AOrder) (d addr v : GIx) (s : State) : Plan := atomicPlan s sc o d addr [v] (atomOp s .max sz v)
/-- R163, R164. -/
def planAswp (sz : ASize) (sc : Scope) (o : AOrder) (d addr v : GIx) (s : State) : Plan := atomicPlan s sc o d addr [v] (atomOp s .swp sz v)
/-- R163, R164: the new value is in g(v + 1). -/
def planAcas (sz : ASize) (sc : Scope) (o : AOrder) (d addr v : GIx) (s : State) : Plan :=
  atomicPlan s sc o d addr [v, v + 1] { atomOp s .cas sz v with y := s.gv (v + 1) }
/-- R163, R164: FP32, under RND as it stands at issue. -/
def planAfadd (sc : Scope) (o : AOrder) (d addr v : GIx) (s : State) : Plan :=
  atomicPlan s sc o d addr [v] { atomOp s .fadd .wu v with signed := false }

/-- The new value of an atomic, none where no write is made, and its flags (R164). -/
def AtomOp.result (op : AtomOp) (old : Nat) : Option Nat × Flags :=
  let m := 2 ^ (8 * op.w)
  let x := op.x.toNat % m
  let so := (BitVec.ofNat (8 * op.w) old).toInt
  let sx := (BitVec.ofNat (8 * op.w) x).toInt
  match op.k with
  | .add => (some ((old + x) % m), 0)
  | .and => (some (old &&& x), 0)
  | .or => (some (old ||| x), 0)
  | .xor => (some (old ^^^ x), 0)
  | .min => (some (if op.signed then (if sx < so then x else old) else min old x), 0)
  | .max => (some (if op.signed then (if so < sx then x else old) else max old x), 0)
  | .swp => (some x, 0)
  | .cas => (if old = x then some (op.y.toNat % m) else none, 0)
  | .fadd => let r := addF .fp32 (Rnd.ofBits op.rnd) old x; (some r.1, r.2)

/-- The old value as g(d) receives it (R164). -/
def AtomOp.oldWord (op : AtomOp) (old : Nat) : Word := extend op.w (op.w == 4 && op.signed && op.k != .fadd) old

/-! ### FENCE (R167) -/

/-- Is an outstanding operation a load, an atomic or a TLD? -/
def Access.acquirable (a : Access) : Bool := match a.op with
  | .loadG .. | .loadV .. | .atomic .. | .tile _ true => true
  | _ => false

/-- R167: FENCE does not park; it holds later operations back. -/
def planFence (_sc : Scope) (o : FOrder) (_s : State) : Plan := .act fun t => t.modCtx fun c =>
  let all := (c.accs.filter (·.earlier)).map (·.id)
  let loads := (c.accs.filter (·.acquirable)).map (·.id)
  match o with
  | .acq => { c with holdAll := c.holdAll ++ loads }
  | .rel => { c with holdRel := c.holdRel ++ all, holdRelPorts := c.holdRelPorts ++ c.due }
  | .ar => { c with
      holdAll := c.holdAll ++ all, holdRel := c.holdRel ++ all
      holdAllPorts := c.holdAllPorts ++ c.due, holdRelPorts := c.holdRelPorts ++ c.due }

/-! ### Stream ports (R168 to R171) -/

/-- A port from its descriptor, none where a field faults STREAM (R168). -/
def portOfDesc (w0 w1 w2 w3 : Nat) : Option Port :=
  let size := w3 % 4
  if w2 / 2 ^ 32 ≠ 0 ∨ w3 / 16 ≠ 0 ∨ w0 % 2 ^ size ≠ 0 ∨ w1 % 2 ^ size ≠ 0 then none
  else some { wr := w3 / 8 % 2 == 1, sx := w3 / 4 % 2 == 1, size := size, base := BitVec.ofNat 64 w0
              stride := BitVec.ofNat 64 w1, count := w2 % 2 ^ 32, pos := 0, moved := 0, fifo := [], halted := false, pc := 0, pair := 0, no := 0 }

/-- A port from the words of its descriptor (R168). -/
def portOfWords (ws : List Word) : Option Port :=
  portOfDesc (ws.getD 0 0).toNat (ws.getD 1 0).toNat (ws.getD 2 0).toNat (ws.getD 3 0).toNat

/-- A port bound at a register (R168). -/
def bindPort (d : GIx) (ws : List Word) (t : State) : State := match (if ws.isEmpty then none else portOfWords ws), portIx d with
  | some p, some i => t.modCtx fun c => { c with ports := c.ports.set i (some { p with no := c.binds, pc := c.pc, pair := t.pair }), binds := c.binds + 1 }
  | _, _ => t

/-- R168: the descriptor's address is checked at issue, and its home is asked for it as a plain access (log 5). The spec
does not say when a BASE with a wrong tag faults: each element's address is checked as its access is made (R169), and that
finds it (DESIGN CHOICE, log 52). -/
def planSbind (d a : GIx) (s : State) : Plan :=
  if s.ctx.g[d].pending then .park .reg
  else gated s [a] [] [] [] (
    if s.rdt && s.ctx.trail then outside s [] (bindPort d)
    else if s.plainBlocked || (s.rdt && s.lvFull) then .park .mem
    else if (s.gv a).toNat / 2 ^ 60 = 8 then .trap (Trap.at_ Cause.addrTag (s.gv a))
    else match s.element s.who (s.gv a) 32 32 .read with
      | .error t => .trap t
      | .ok (.fab _ _) => .trap (Trap.at_ Cause.addrTag (s.gv a))
      | .ok (.mem k) =>
        let ws := (List.range 4).map fun j => BitVec.ofNat 64 (s.load (k + 8 * j) 8)
        lateRead s (some (.mem k, 32)) (s.gv a) true (
          if (s.ctx.portOf d).isSome then .trap (Trap.plain Cause.stream)
          else match portOfWords ws, portIx d with
            | some _, some _ => outside s ws (bindPort d)
            | _, _ => .trap (Trap.plain Cause.stream)))

/-- R170: a write port drains first, and a load that is still to push an element comes before that (R14, R16). Where
nothing has been pushed since SBIND, the spec's "last written value" names none: the register is then Full with the value
that it held before the binding, a Dead one too (DESIGN CHOICE, log 53). -/
def planSunbind (d : GIx) (s : State) : Plan := match s.ctx.portOf d, portIx d with
  | some p, some i =>
    if s.ctx.g[d].pending then .park .reg
    else if p.wr && !p.fifo.isEmpty then .park .mem
    else .act fun t => t.modCtx fun c =>
      let c1 := { c with ports := c.ports.set i none }
      if p.wr then c1.setG d c1.g[d].val else c1.killG d
  | _, _ => Plan.nop

/-- The status word of a port (R171). -/
def portStatus : Option Port → Word
  | none => 0
  | some p => BitVec.ofNat 64 (2 ^ 63 + p.wr.toNat * 2 ^ 62 + p.fifo.length % 16 * 2 ^ 58 + (p.count - p.pos))
/-- R171. How far a port has come is known outside the thread only: the trailing copy of an RDT task takes the word from the
load-value queue (log 24). -/
def planSstat (d a : GIx) (s : State) : Plan :=
  gated s [] [] [d] [] (outside s [portStatus (s.ctx.portOf a)] fun ws t => t.writeG d (ws.headD 0))

/-! ### Register fills (R177, R178) -/

/-- R177. -/
def planRegput (a b : GIx) (s : State) : Plan :=
  let t := (s.gv a).toNat
  let core := t % 2 ^ 11
  let slot : Fin 16 := Fin.ofNat 16 (t / 2 ^ 23)
  effect s [a, b] [] true (gated s [a, b] [] [] [] (
    if s.plainBlocked || s.heldRel then .park .mem
    else if t / 2 ^ 31 ≠ 0 then .trap (Trap.plain Cause.addrTag)
    else if t / 2 ^ 11 % 2 ^ 12 ≠ s.hub.peer.toNat ∨ !s.inCoreSet s.ctx.rcb core ∨ (core = s.core ∧ slot = s.slot) then
      .trap (Trap.plain Cause.protection)
    else .go (fun u => u.startAcc (.fill core slot (Fin.ofNat 16 (t / 2 ^ 27)) (s.gv b)) true) fun _ u => parkAfter true u))

/-- R178. -/
def planEmptyr (d : GIx) (s : State) : Plan :=
  if s.ctx.g[d].pending then .park .reg
  else if (s.ctx.portOf d).isSome then .trap (Trap.plain Cause.stream)
  else .act fun t => t.modCtx fun c => { c with g := c.g.set d { (c.g[d]) with f := false, d := false, tag := none } }

/-! ### The meanings: each instruction alone in its pair -/

/-- Ld (R154, R169, R153, R167, R14, R349, R6, R160, R350, R13, R275, R380, R381, R157, R222, R162, R158). -/
def execLd (sz : Size) (x : Bool) (d base : GIx) (off : BitVec 8) (s : State) : Host.Outcome State Fault Refusal :=
  .next (issueOne (planLd sz x d base off s) s)

/-- LdWide (R157). -/
def execLdWide (sz : Size) (x : Bool) (d base : GIx) (lit : BitVec 32) (s : State) : Host.Outcome State Fault Refusal :=
  .next (issueOne (planLdWide sz x d base lit s) s)

/-- Lds (R157). -/
def execLds (sz : Size) (x : Bool) (d base : GIx) (off : BitVec 8) (s : State) : Host.Outcome State Fault Refusal :=
  .next (issueOne (planLds sz x d base off s) s)

/-- LdsWide (R157). -/
def execLdsWide (sz : Size) (x : Bool) (d base : GIx) (lit : BitVec 32) (s : State) : Host.Outcome State Fault Refusal :=
  .next (issueOne (planLdsWide sz x d base lit s) s)

/-- St (R157). -/
def execSt (sz : Size) (x : Bool) (d base : GIx) (off : BitVec 8) (s : State) : Host.Outcome State Fault Refusal :=
  .next (issueOne (planSt sz x d base off s) s)

/-- StWide (R157). -/
def execStWide (sz : Size) (x : Bool) (d base : GIx) (lit : BitVec 32) (s : State) : Host.Outcome State Fault Refusal :=
  .next (issueOne (planStWide sz x d base lit s) s)

/-- Ldv (R157, R159). -/
def execLdv (x : Bool) (d : VIx) (base : GIx) (off : BitVec 8) (s : State) : Host.Outcome State Fault Refusal :=
  .next (issueOne (planLdv x d base off s) s)

/-- LdvWide (R157). -/
def execLdvWide (x : Bool) (d : VIx) (base : GIx) (lit : BitVec 32) (s : State) : Host.Outcome State Fault Refusal :=
  .next (issueOne (planLdvWide x d base lit s) s)

/-- Stv (R157). -/
def execStv (x : Bool) (d : VIx) (base : GIx) (off : BitVec 8) (s : State) : Host.Outcome State Fault Refusal :=
  .next (issueOne (planStv x d base off s) s)

/-- StvWide (R157). -/
def execStvWide (x : Bool) (d : VIx) (base : GIx) (lit : BitVec 32) (s : State) : Host.Outcome State Fault Refusal :=
  .next (issueOne (planStvWide x d base lit s) s)

/-- Ldvs (R158, R159). -/
def execLdvs (e : ESize) (x : Bool) (d : VIx) (a b : GIx) (s : State) : Host.Outcome State Fault Refusal :=
  .next (issueOne (planLdvs e x d a b s) s)

/-- Stvs (R158). -/
def execStvs (e : ESize) (x : Bool) (d : VIx) (a b : GIx) (s : State) : Host.Outcome State Fault Refusal :=
  .next (issueOne (planStvs e x d a b s) s)

/-- Vgath (R159). -/
def execVgath (e : ESize) (x : Bool) (d : VIx) (a : GIx) (b : VIx) (s : State) : Host.Outcome State Fault Refusal :=
  .next (issueOne (planVgath e x d a b s) s)

/-- Vscat (R159). -/
def execVscat (e : ESize) (x : Bool) (d : VIx) (a : GIx) (b : VIx) (s : State) : Host.Outcome State Fault Refusal :=
  .next (issueOne (planVscat e x d a b s) s)

/-- Aadd (R164, R165, R166, R163). -/
def execAadd (sz : ASize) (sc : Scope) (o : AOrder) (d addr v : GIx) (s : State) : Host.Outcome State Fault Refusal :=
  .next (issueOne (planAadd sz sc o d addr v s) s)

/-- Aand (R163, R164). -/
def execAand (sz : ASize) (sc : Scope) (o : AOrder) (d addr v : GIx) (s : State) : Host.Outcome State Fault Refusal :=
  .next (issueOne (planAand sz sc o d addr v s) s)

/-- Aor (R163, R164). -/
def execAor (sz : ASize) (sc : Scope) (o : AOrder) (d addr v : GIx) (s : State) : Host.Outcome State Fault Refusal :=
  .next (issueOne (planAor sz sc o d addr v s) s)

/-- Axor (R163, R164). -/
def execAxor (sz : ASize) (sc : Scope) (o : AOrder) (d addr v : GIx) (s : State) : Host.Outcome State Fault Refusal :=
  .next (issueOne (planAxor sz sc o d addr v s) s)

/-- Amin (R163, R164). -/
def execAmin (sz : ASize) (sc : Scope) (o : AOrder) (d addr v : GIx) (s : State) : Host.Outcome State Fault Refusal :=
  .next (issueOne (planAmin sz sc o d addr v s) s)

/-- Amax (R163, R164). -/
def execAmax (sz : ASize) (sc : Scope) (o : AOrder) (d addr v : GIx) (s : State) : Host.Outcome State Fault Refusal :=
  .next (issueOne (planAmax sz sc o d addr v s) s)

/-- Aswp (R163, R164). -/
def execAswp (sz : ASize) (sc : Scope) (o : AOrder) (d addr v : GIx) (s : State) : Host.Outcome State Fault Refusal :=
  .next (issueOne (planAswp sz sc o d addr v s) s)

/-- Acas (R163, R164). -/
def execAcas (sz : ASize) (sc : Scope) (o : AOrder) (d addr v : GIx) (s : State) : Host.Outcome State Fault Refusal :=
  .next (issueOne (planAcas sz sc o d addr v s) s)

/-- Afadd (R163, R164). -/
def execAfadd (sc : Scope) (o : AOrder) (d addr v : GIx) (s : State) : Host.Outcome State Fault Refusal :=
  .next (issueOne (planAfadd sc o d addr v s) s)

/-- Fence (R164, R167). -/
def execFence (_sc : Scope) (o : FOrder) (s : State) : Host.Outcome State Fault Refusal :=
  .next (issueOne (planFence _sc o s) s)

/-- Sbind (R168). -/
def execSbind (d a : GIx) (s : State) : Host.Outcome State Fault Refusal :=
  .next (issueOne (planSbind d a s) s)

/-- Sunbind (R170). -/
def execSunbind (d : GIx) (s : State) : Host.Outcome State Fault Refusal :=
  .next (issueOne (planSunbind d s) s)

/-- Sstat (R171). -/
def execSstat (d a : GIx) (s : State) : Host.Outcome State Fault Refusal :=
  .next (issueOne (planSstat d a s) s)

/-- Regput (R177). -/
def execRegput (a b : GIx) (s : State) : Host.Outcome State Fault Refusal :=
  .next (issueOne (planRegput a b s) s)

/-- Emptyr (R178). -/
def execEmptyr (d : GIx) (s : State) : Host.Outcome State Fault Refusal :=
  .next (issueOne (planEmptyr d s) s)

end Sys2Proof.Machine
end

