-- ==== Sys2Proof/Machine/Channel.lean ====
section
/-! DEFINITION. Write channels and reductions as a task uses them (10, R222 to R230). The fabric's own side is in
Fabric.lean. -/

namespace Sys2Proof.Machine

/-- The object that a channel releases, as the registry names it (R223). -/
def Chan.ref (c : Chan) : ObjRef :=
  if c.group then .group (c.dest.truncate 10) c.off else .remote c.dest c.off

/-- ARG of a FLAG or MFLAG (log 18): bit 0 asks for a report, bit 1 is the close mark, bit 2 a poisoning release with
its code in bits 15:8. -/
def flagArg (rp close : Bool) (poison : Option Nat) : BitVec 40 :=
  BitVec.ofNat 40 (rp.toNat + close.toNat * 2 + match poison with
    | some c => 4 + c * 256
    | none => 0)

/-- The release flag of a channel for release `k` (R225, R229, R355, R370); OFFSET names the object, by which the receiver's
gateway checks it (R353; log 18). -/
def flagPkt (core h : Nat) (c : Chan) (k : Nat) (tag : BitVec 16) (arg : BitVec 40) : Packet :=
  { Packet.zero with
    typ := if c.group then 0x08 else 0x07, gen := c.gen, dst := c.dest, srcEp := epOf core
    ctr := if c.group then BitVec.ofNat 14 (h % 4096) else c.ctr, rtag := tag, offset := c.off, k := BitVec.ofNat 48 k, c := c.counted
    arg := arg }

/-- A flag or a counted write leaves; a reliable channel keeps a copy (R355). -/
def State.sendCounted (s : State) (h : Nat) (c : Chan) (p : Packet) (flag : Bool) : State :=
  let s1 := s.sendPkt p
  if c.reliable then
    s1.modDie (h / 1024 % 4) fun d => { d with
      replay := (if flag then d.replay.map fun r => if r.chan = c.id ∧ r.left = none then { r with left := some s.clk } else r
        else d.replay) ++ [{ chan := c.id, pkt := { p with src := s.hub.peer }, left := if flag then some s.clk else none }] }
  else s1

/-- A release of a channel (R225): its flag leaves, and the next release begins. -/
def State.releaseChan (s : State) (core h : Nat) (rp : Option (BitVec 16)) (close : Bool) (poison : Option Nat) : State :=
  match tabGet (s.dieAt (h / 1024 % 4)).chans (h % 1024) with
  | none => s
  | some c =>
    let k := c.released + 1
    let s1 := s.sendCounted h c (flagPkt core h c k (rp.getD 0) (flagArg rp.isSome close poison)) true
    let s2 := s1.modChan h fun c => { c with released := k, unrel := 0 }
    match rp with
    | none => s2
    | some tag =>
      let w : ReportWait :=
        { core := core, chan := c.id, handle := h, k := BitVec.ofNat 48 k, tag := tag, group := c.group, dest := c.dest, gen := c.gen, ctr := c.ctr, since := s.clk }
      (s2.modHub fun hb => { hb with reports := hb.reports ++ [w] }).modCore core fun x => { x with pending := x.pending + 1 }

/-- The entry of a channel discharged from a registry: one channel is one obligation (R223, R226). -/
def dropChanObl (l : List Obl) (c : Chan) : List Obl := match findObl l c.ref with
  | some e => putObl l { e with m := e.m - 1 }
  | none => l

/-- A channel closes (R226): its final release leaves unless it has failed, its entry is discharged, the send-table
entry is free, and WCH names it no longer, in either copy of an RDT task (R379). `poison` is the code of a poisoning
release. -/
def State.closeChan (s : State) (n : Nat) (i : Fin 16) (h : Nat) (poison : Option Nat) : State :=
  match tabGet (s.dieAt (h / 1024 % 4)).chans (h % 1024) with
  | none => s
  | some c =>
    let s1 := if c.failed then s else s.releaseChan n h none true poison
    let s2 := s1.modDie (h / 1024 % 4) fun d => { d with
      chans := tabDel d.chans (h % 1024), replay := d.replay.filter fun r => r.chan != c.id || r.left.isSome }
    let forget := fun (x : Ctx) => if x.wch = BitVec.ofNat 16 (2 ^ 15 + h % 4096) then 0 else x.wch
    let s3 := s2.modCtxAt n i fun x => { x with obls := if c.owes then dropChanObl x.obls c else x.obls, wch := forget x }
    if s.isRdt (s.ctxAt n i).rcb then s3.modCtxAt n (trailSlot i) fun x => { x with wch := forget x } else s3

/-- The handles of a task's channels, rising (R378). -/
def State.handlesOf (s : State) (tid : BitVec 48) : List Nat :=
  s.dies.flatMap fun e => (e.2.chans.filter fun c => c.2.tid == tid && c.2.live).map fun c => e.1 * 1024 + c.1

/-- Every channel of a task closes (R226). -/
def State.closeAll (s : State) (n : Nat) (i : Fin 16) (poison : Option Nat) : State :=
  (s.handlesOf (s.ctxAt n i).tid).foldl (fun s h => s.closeChan n i h poison) s

/-! ### WCOPEN and WCSEL (R223, R224) -/

/-- A group entry of this device (R362). -/
def State.groupAt (s : State) (g : Nat) : GroupEntry :=
  (tabGet s.hub.groups g).getD { valid := false, local_ := false, isRoot := false, fwd := 0, up := 7, root := 0, sub := 0
                                 midx := 0, nmem := 0 }

/-- The members of a group that this device has not declared dead (R354, R361). -/
def State.membersOf (s : State) (g : Nat) : List (BitVec 12) :=
  ((tabGet s.hub.members g).getD []).filter fun p => match tabGet s.hub.peers p.toNat with
    | some (.dead, _) => false
    | _ => true

/-- An OPEN (R354): RTAG carries the handle, ARG bit 0 marks one for a group and bit 1 one for a reliable channel
(log 18). -/
def openPkt (core h : Nat) (group reliable : Bool) (dest : BitVec 12) (off : BitVec 48) : Packet :=
  { Packet.zero with
    typ := 0x09, dst := dest, srcEp := epOf core, rtag := BitVec.ofNat 16 h, offset := off
    arg := BitVec.ofNat 40 (group.toNat + 2 * reliable.toNat) }

/-- A channel whose handshake has not ended (R223, R354). -/
def newChan (tid : BitVec 48) (core : Nat) (group reliable : Bool) (dest : BitVec 12) (off : BitVec 48)
    (opening : List (BitVec 12)) : Chan :=
  { tid := tid, core := core, failed := false, group := group, reliable := reliable, dest := dest, off := off, ctr := 0
    gen := 0, counted := 0, unrel := 0, released := 0, rank := 0xFFFFFFFF, opening := opening
    opened := [], owes := false, declined := none, live := false }

/-- WCOPEN finds no room in the registry (R186, R276): the object's rank is not known before the handshake, so that it is a
free value (DESIGN CHOICE, log 64). -/
def openOversub (s : State) (p : Word) : Trap :=
  objTrap Cause.objOversub p (Config.openRank s.ticks).toNat s.ctx.minRank

/-- R223. A CHANNEL fault before the handshake names no address (R296). -/
def planWcopen (d a b : GIx) (s : State) : Plan :=
  let p := (s.gv a).toNat
  let o := (s.gv b).toNat
  let group := o / 4 % 2 == 1
  let die := dieOfCore s.core
  gated s [a, b] [] [d] [] (
    if s.plainBlocked || s.heldRel || (s.rdt && !s.ctx.trail && s.lvFull) then .park .mem
    else if o / 8 ≠ 0 then .trap (Trap.plain Cause.format)
    else if !group && p / 2 ^ 60 != 8 then .trap (Trap.at_ Cause.addrTag (s.gv a))
    else if group && p / 2 ^ 58 != 0 then .trap (Trap.at_ Cause.addrTag (s.gv a))
    else if s.rdt && s.ctx.trail then outside s [] fun ws t => (t.takeG d ws id).modCtx fun c =>
      if !ws.isEmpty && o / 2 % 2 == 1 then { c with wch := BitVec.ofNat 16 (2 ^ 15 + (ws.headD 0).toNat) } else c
    else match (if group then none else s.peerCheck (p / 2 ^ 48 % 4096)) with
      | some c => .trap (Trap.at_ c (s.gv a))
      | none =>
        if group && !(s.groupAt (p / 2 ^ 48 % 1024)).valid then .trap (Trap.plain Cause.channel)
        else match tabFree (s.dieAt die).chans 1024 with
          | none => .trap (Trap.plain Cause.channel)
          | some ix =>
            let dest : BitVec 12 := if group then BitVec.ofNat 12 (p / 2 ^ 48 % 1024) else BitVec.ofNat 12 (p / 2 ^ 48)
            let off := BitVec.ofNat 48 p
            let h := die * 1024 + ix
            if !registryRoom s.ctx.obls (newChan s.ctx.tid s.core group (o % 2 == 1) dest off []).ref then
              .trap (openOversub s (s.gv a))
            else .go (fun t =>
              let peers := if group then s.membersOf dest.toNat else [dest]
              let t1 := t.modDie die fun x => { x with chans := tabPut x.chans ix { newChan s.ctx.tid s.core group (o % 2 == 1) dest off peers with id := t.seq } }
              peers.foldl (fun t p => t.sendPkt (openPkt s.core h group (o % 2 == 1) p off))
                (t1.startAcc (.wcopen d (BitVec.ofNat 12 h) (o / 2 % 2 == 1) (s.gv a)) true))
              fun _ t => parkAfter true t)

/-- R224. -/
def planWcsel (a : GIx) (s : State) : Plan :=
  let v := (s.gv a).toNat
  gated s [a] [] [] [] (
    if v / 2 ^ 16 ≠ 0 ∨ v / 2 ^ 12 % 8 ≠ 0 ∨ (v / 2 ^ 15 = 1 ∧ (match s.chanOf (v % 4096) with
        | some c => c.failed
        | none => true) = true) then .trap (Trap.plain Cause.channel)
    else .act fun t => t.modCtx fun c => { c with wch := BitVec.ofNat 16 v })

/-! ### Releases (R225, R226, R229) -/

/-- The handle that a release names: an open channel of the task, of the kind that the instruction releases. -/
def State.releasable (s : State) (v : Word) (group : Bool) : Bool := match s.chanOf (v.toNat % 4096) with
  | some c => !c.failed && c.group == group && decide (v.toNat < 4096)
  | none => false

/-- A release by an instruction: it issues only when every earlier access has completed (R225). -/
def relPlan (s : State) (group : Bool) (d a : GIx) (gs : List GIx) (rp : Option (BitVec 16)) : Plan :=
  let h := (s.gv a).toNat % 4096
  effect s (a :: gs) [d] true (gated s (a :: gs) [] [d] [] (
    if s.plainBlocked then .park .mem
    else if !s.releasable (s.gv a) group then .trap (Trap.plain Cause.channel)
    else .act fun t => (t.releaseChan s.core h rp false none).writeG d (BitVec.ofNat 64 (((s.chanOf h).map (·.released)).getD 0 + 1))))

/-- R225. -/
def planWcrel (d a : GIx) (s : State) : Plan := relPlan s false d a [] none
/-- R225, R227. -/
def planWcrelRp (d a b : GIx) (s : State) : Plan := relPlan s false d a [b] (some ((s.gv b).truncate 16))
/-- R226: a FAILED channel is discharged without sending. -/
def planWcclose (a : GIx) (s : State) : Plan :=
  effect s [a] [] true (gated s [a] [] [] [] (
    if s.plainBlocked then .park .mem
    else if (s.gv a).toNat ≥ 4096 ∨ (s.chanOf ((s.gv a).toNat % 4096)).isNone then .trap (Trap.plain Cause.channel)
    else .act fun t => t.closeChan s.core s.slot ((s.gv a).toNat % 4096) none))
/-- R229. -/
def planMcrel (d a : GIx) (s : State) : Plan := relPlan s true d a [] none
/-- R229, R227. -/
def planMcrelRp (d a b : GIx) (s : State) : Plan := relPlan s true d a [b] (some ((s.gv b).truncate 16))

/-- R228: the line is read as the access is performed; `n` holds size / 64 minus 1. The channel counts the write as the MCST
issues. Where its line is found uncorrectable no packet leaves, and the count stays: the spec is silent (DESIGN CHOICE,
log 67). -/
def planMcst (n : Fin 4) (a b : GIx) (s : State) : Plan :=
  let size := 64 * (n.val + 1)
  let tag := (s.gv b).toNat / 2 ^ 60
  effect s [a, b] [] true (gated s [a, b] [] [] [] (
    if s.plainBlocked || s.heldRel then .park .mem
    else if (s.gv a).toNat / 2 ^ 48 ≠ 0 then .trap (Trap.at_ Cause.addrTag (s.gv a))
    else if tag ≠ 0 ∧ tag ≠ 0xE ∧ tag ≠ 0xF then .trap (Trap.at_ Cause.addrTag (s.gv b))
    else match s.element s.who (s.gv b) size 64 .read with
      | .error t => .trap t
      | .ok (.fab _ _) => .trap (Trap.at_ Cause.addrTag (s.gv b))
      | .ok (.mem k) =>
        let h := s.ctx.wch.toNat % 4096
        match (if s.ctx.wch.getLsbD 15 then s.chanOf h else none) with
        | none => .trap (Trap.plain Cause.channel)
        | some c =>
          if !c.group || c.failed || decide (2 ^ 23 ≤ c.unrel + 1) then .trap (Trap.plain Cause.channel)
          else .go (fun t => (t.modChan h fun c => { c with unrel := c.unrel + 1, counted := c.counted + 1 }).startAcc
              (.mcst s.ctx.wch (BitVec.ofNat 48 (s.gv a).toNat) k size (s.gv b)) true) fun _ t => parkAfter true t))

/-! ### Stores as their homes perform them (R158, R160) -/

/-- A counted WRITE or MWRITE (R355, R370). -/
def writePkt (core h : Nat) (c : Chan) (off : BitVec 48) (data : List Byte) : Packet :=
  { Packet.zero with
    typ := if c.group then 0x02 else 0x01, gen := c.gen, dst := c.dest, srcEp := epOf core
    ctr := if c.group then BitVec.ofNat 14 (h % 4096) else c.ctr, offset := off, bytes := BitVec.ofNat 16 data.length
    k := BitVec.ofNat 48 (c.released + 1), payload := data }

/-- A fabric store reaches its gateway (R160). -/
def State.sendWrite (s : State) (core : Nat) (wch : BitVec 16) (off : BitVec 48) (data : List Byte) : State :=
  let h := wch.toNat % 4096
  match tabGet (s.dieAt (h / 1024 % 4)).chans (h % 1024) with
  | some c => s.sendCounted h c (writePkt core h c off data) false
  | none => s

/-- The late fault of a store that its home does not take (R311, R375). -/
def State.storeBad (s : State) (k : Nat) : Option (BitVec 8) := match spaceOf k with
  | .loc c => if (s.coreAt c).contained then some Cause.uncorrectable else none
  | .second p => match tabGet s.hub.expanders p with
    | some (_, true) => none
    | _ => some Cause.translation
  | _ => none

/-- The pieces in which an element of a store of `n` bytes is performed: an STV writes 4-byte lanes (R156; log 65). -/
def storeParts (n : Nat) : Nat := if n = 64 then 16 else 1

/-- Lane `j` of the 64 bytes of an STV is performed (R156; log 65). -/
def State.storeLane (s : State) (k v j : Nat) : State :=
  s.storePart k 64 (k + 4 * j) 4 (v / 2 ^ (32 * j) % 2 ^ 32) (j == 15)

/-- Elements of a store performed in order: the first late fault, if any, and the state (R158, R321, R375). -/
def State.performStores (s : State) (core : Nat) (n : Nat) (wch : BitVec 16) : List (Home × Nat) → Option (BitVec 8 × Nat) → State × Option (BitVec 8 × Nat)
  | [], f => (s, f)
  | (.mem k, v) :: rest, f => match s.storeBad k with
    | some c => s.performStores core n wch rest (f.or (some (c, k)))
    | none =>
      let f' := if s.dropsStore k n then f.or (some (Cause.uncorrectable, k)) else f
      (s.store k n v).performStores core n wch rest f'
  | (.fab _ off, v) :: rest, f => (s.sendWrite core wch off (bytesLE n v)).performStores core n wch rest f

/-- The next piece of an element of a store of `n` bytes is performed, `j` pieces of it having been: the state, the late
fault, if any, and the pieces performed. A peer is sent the whole element (R160). -/
def State.performPiece (s : State) (core n : Nat) (wch : BitVec 16) (e : Home × Nat) (j : Nat) : State × Option (BitVec 8 × Nat) × Nat :=
  match e.1, decide (n = 64) with
  | .mem k, true =>
    let bad := (s.storeBad k).or (if s.dropsStore k n then some Cause.uncorrectable else none)
    (if bad.isSome then s else s.storeLane k e.2 j, bad.map fun c => (c, k), 1)
  | _, _ => let r := s.performStores core n wch [e] none
    (r.1, r.2, storeParts n)

/-- What is left of a store is performed at once, `done` pieces of it having been (R272). -/
def State.storeRest (s : State) (core n : Nat) (wch : BitVec 16) (els : List (Home × Nat)) (done : Nat) : State :=
  let per := storeParts n
  match els.drop (done / per) with
  | [] => s
  | e :: rest =>
    let s1 := match e.1, decide (n = 64) with
      | .mem k, true => if (s.storeBad k).isSome then s
        else (List.range' (done % per) (per - done % per)).foldl (fun s j => s.storeLane k e.2 j) s
      | _, _ => (s.performStores core n wch [e] none).1
    (s1.performStores core n wch rest none).1

/-! ### REDPUT (R230, R365) -/

/-- The code of a reduction operation (R71). -/
def redCode : RedOp → Nat
  | .sum => 0 | .max => 1 | .min => 2 | .maxabs => 3

/-- A REDPUT (R365; log 18): K holds the value in bits 31:0 and MIDX above, ARG the group, TAG, timeout, op and mode. -/
def redPkt (core : Nat) (e : GroupEntry) (g : Nat) (tag timeout : Nat) (op : RedOp) (ign : Bool) (v : Nat) (rtag : BitVec 16) : Packet :=
  { Packet.zero with
    typ := 0x0F, dst := e.root, srcEp := epOf core, rtag := rtag, k := BitVec.ofNat 48 (v % 2 ^ 32 + e.midx.toNat * 2 ^ 32)
    arg := BitVec.ofNat 40 (g + tag * 2 ^ 10 + timeout * 2 ^ 26 + redCode op * 2 ^ 32 + ign.toNat * 2 ^ 34) }

/-- R230. -/
def planRedput (op : RedOp) (ign : Bool) (d a b : GIx) (s : State) : Plan :=
  let w := (s.gv a).toNat
  let g := w / 2 ^ 16 % 1024
  let e := s.groupAt g
  gated s [a, b] [] [d] [] (
    if s.tagBusy || s.relaxedBlocked false || (s.rdt && !s.ctx.trail && s.lvFull) then .park .mem
    else if (s.gv b).toNat / 2 ^ 32 ≠ 0 ∨ w / 2 ^ 38 ≠ 0 ∨ w / 2 ^ 26 % 64 ≠ 0 then .trap (Trap.plain Cause.format)
    else if s.rdt && s.ctx.trail then outside s [] fun ws t => t.takeG d ws id
    else if !e.valid || !e.local_ || decide (32 < e.nmem.toNat) then .trap (Trap.plain Cause.channel)
    else .act fun t =>
      ((t.startAcc (.reduce d (BitVec.ofNat 16 w) g) false).modCur fun c => { c with
          pending := c.pending + 1, redputs := c.redputs ++ [(rtagOf t.seq 0, BitVec.ofNat 16 w, g)] }).sendPkt
        (redPkt s.core e g (w % 2 ^ 16) (w / 2 ^ 32 % 64) op ign (s.gv b).toNat (rtagOf t.seq 0)))

/-! ### The meanings: each instruction alone in its pair -/

/-- Wcopen (R223, R225, R229, R355, R370, R226, R378, R224, R362, R360, R354). -/
def execWcopen (d a b : GIx) (s : State) : Host.Outcome State Fault Refusal :=
  .next (issueOne (planWcopen d a b s) s)

/-- Wcsel (R224). -/
def execWcsel (a : GIx) (s : State) : Host.Outcome State Fault Refusal :=
  .next (issueOne (planWcsel a s) s)

/-- Wcrel (R225). -/
def execWcrel (d a : GIx) (s : State) : Host.Outcome State Fault Refusal :=
  .next (issueOne (planWcrel d a s) s)

/-- WcrelRp (R225, R227). -/
def execWcrelRp (d a b : GIx) (s : State) : Host.Outcome State Fault Refusal :=
  .next (issueOne (planWcrelRp d a b s) s)

/-- Wcclose (R226). -/
def execWcclose (a : GIx) (s : State) : Host.Outcome State Fault Refusal :=
  .next (issueOne (planWcclose a s) s)

/-- Mcrel (R229). -/
def execMcrel (d a : GIx) (s : State) : Host.Outcome State Fault Refusal :=
  .next (issueOne (planMcrel d a s) s)

/-- McrelRp (R229, R227). -/
def execMcrelRp (d a b : GIx) (s : State) : Host.Outcome State Fault Refusal :=
  .next (issueOne (planMcrelRp d a b s) s)

/-- Mcst (R228). -/
def execMcst (n : Fin 4) (a b : GIx) (s : State) : Host.Outcome State Fault Refusal :=
  .next (issueOne (planMcst n a b s) s)

/-- Redput (R71, R365, R230). -/
def execRedput (op : RedOp) (ign : Bool) (d a b : GIx) (s : State) : Host.Outcome State Fault Refusal :=
  .next (issueOne (planRedput op ign d a b s) s)

end Sys2Proof.Machine
end

