-- ==== Sys2Proof/Machine/Task.lean ====
section
/-! DEFINITION. Control flow, the end and the migration of a task, traps and their records (05, R116 to R121; 09, R204;
10, R219, R220; 13, R276, R279, R280; 23, R377, R378). -/

namespace Sys2Proof.Machine

/-- The PC of a task set. -/
def State.setPc (s : State) (pc : Word) : State := s.modCtx fun c => { c with pc := pc }

/-- A relative target (R116). -/
def relTarget (pc : Word) (off : Word) : Word := pc + off * 8

/-- R116. -/
def planBr (off : BitVec 19) (s : State) : Plan := .go id fun _ t => t.setPc (relTarget s.ctx.pc (off.signExtend 64))
/-- R116. -/
def planBrWide (lit : BitVec 32) (s : State) : Plan := .go id fun _ t => t.setPc (relTarget s.ctx.pc (lit.signExtend 64))

/-- A call: the registers of CMASK are marked Dead, then g8 holds the return address (R20, R116, R118). -/
def callPlan (s : State) (gs : List GIx) (target : Word) : Plan :=
  gated s gs [] [8] [] (.go (fun t => (t.modCtx (·.markDead)).writeG 8 (s.ctx.pc + 8)) fun _ t => t.setPc target)
/-- R116. -/
def planCall (off : BitVec 19) (s : State) : Plan := callPlan s [] (relTarget s.ctx.pc (off.signExtend 64))
/-- R116. -/
def planCallWide (lit : BitVec 32) (s : State) : Plan := callPlan s [] (relTarget s.ctx.pc (lit.signExtend 64))

/-- A register target is a multiple of 8 (R41, R117). -/
def targetOk (w : Word) : Bool := w.toNat % 8 == 0
/-- R117. -/
def planJmp (a : GIx) (s : State) : Plan :=
  gated s [a] [] [] [] (if targetOk (s.gv a) then .go id fun _ t => t.setPc (s.gv a) else .trap (Trap.at_ Cause.misalign (s.gv a)))
/-- R117. -/
def planCallr (a : GIx) (s : State) : Plan :=
  if targetOk (s.gv a) then callPlan s [a] (s.gv a)
  else gated s [a] [] [8] [] (.trap (Trap.at_ Cause.misalign (s.gv a)))
/-- R117: the target is read from g8 before g8 may be marked Dead. -/
def planRet (s : State) : Plan :=
  gated s [8] [] [] [] (if targetOk (s.gv 8) then .go (fun t => t.modCtx (·.markDead)) fun _ t => t.setPc (s.gv 8)
    else .trap (Trap.at_ Cause.misalign (s.gv 8)))
/-- R44. -/
def planCnop (_s : State) : Plan := Plan.nop

/-! ### The end of a task (R120, R299) -/

/-- A task started by a vector of its region is a supervisor task (R202). -/
def Ctx.supervisor (c : Ctx) : Bool := c.start != .launched

/-- The obligations of a task that halts, other than its own seats, pass to the heir (R203). -/
def State.haltPass (s : State) (n : Nat) (i : Fin 16) : State :=
  let c := s.ctxAt n i
  let others := c.obls.filter fun o => !ownSeat c.rcb o
  let s1 := s.modCtxAt n i fun c => { c with obls := c.obls.filter (ownSeat c.rcb) }
  if c.supervisor then s1.passToHeir (s.rcbParent c.rcb) c.tid 4 n others else s1.passToHeir c.rcb c.tid 0 n others

/-- Is a notice about a task, or its trap record, still waiting for its slot (R120, R337)? -/
def State.noticeWaits (s : State) (tid : BitVec 48) : Bool :=
  s.cores.any fun e => e.2.msgs.any fun m => (m.kind == .notice || m.kind == .trapRecord) && m.about == tid

/-- Steps 4 and 5 of HALT (R120): the seats on the region's completion barrier are discharged, and the slot becomes
empty. -/
def State.haltEnd (s : State) (n : Nat) (i : Fin 16) : State :=
  let c := s.ctxAt n i
  let s1 := (s.modCtxAt n i fun c => { c with obls := [] }).vacate n i
  (c.obls.filter (ownSeat c.rcb)).foldl (fun s e => s.dischargeAll e none e.m) s1

/-- Step 3 of HALT (R120, R203): what the task owes besides its seats passes on, an entry that has come to it meanwhile too,
and once the notice has its slot, steps 4 and 5 follow. -/
def State.haltSeat (s : State) (n : Nat) (i : Fin 16) : State :=
  let s1 := s.haltPass n i
  if s1.noticeWaits (s1.ctxAt n i).tid then s1 else s1.haltEnd n i

/-- Steps 2 and 3 of HALT, once every result has returned and every port has drained (R120): channels close, ports unbind,
tiles are released, obligations pass on. -/
def State.haltNow (s : State) (n : Nat) (i : Fin 16) : State :=
  let s1 := (s.closeAll n i none).modCtxAt n i fun c => { c with ports := Vector.replicate 4 none, cont := .haltSeat }
  ((s1.modCore n (releaseTiles i)).setSt n i .settle).haltSeat n i

/-- Does the trailing copy of a task still await results, matrix operations among them (R120, R152)? -/
def State.trailBusy (s : State) (n : Nat) (i : Fin 16) : Bool :=
  s.isRdt (s.ctxAt n i).rcb && (s.ctxAt n (trailSlot i)).outstanding

/-- R120: HALT settles first. The trailing copy of an RDT task then stands in state 13 until its leading copy has ended, and after
a MIGR until its packet has been accepted: the spec names no state for it, and gives state 13 to KILL and containment only (R11;
DESIGN CHOICE, log 24). -/
def planHalt (s : State) : Plan :=
  .go id fun _ t =>
    if s.rdt && s.ctx.trail then t.enter .ending
    else if t.ctx.outstanding || t.ctx.undrained || t.trailBusy t.core t.slot then
      (t.modCtx fun c => { c with cont := .halt }).enter .settle
    else t.haltNow t.core t.slot

/-! ### TRAPI and SYSCALL (R121) -/

/-- The trap of a TRAPI or SYSCALL whose pair has committed. -/
def deliberate (cause code : BitVec 8) (pc pair : Word) : TrapRec :=
  { cause := cause, late := false, pc := pc, addr := code.zeroExtend 64, ranks := 0, pair := pair }
/-- A deliberate trap: with S = 1 the slot settles first (R121). -/
def deliberatePlan (s : State) (cause code : BitVec 8) : Plan :=
  .go id fun settle t =>
    if settle && t.ctx.outstanding then
      (t.modCtx fun c => { c with cont := .trap cause code s.ctx.pc s.pair }).enter .settle
    else t.takeTrap t.core t.slot (deliberate cause code s.ctx.pc s.pair)
/-- R121. -/
def planTrapi (code : BitVec 8) (s : State) : Plan := deliberatePlan s Cause.trapi code
/-- R121. -/
def planSyscall (code : BitVec 8) (s : State) : Plan := deliberatePlan s Cause.syscall code

/-! ### Migration (R219, R220) -/

/-- The core that owns an address, or the fault (R220). -/
def State.migrTarget (s : State) (p : Word) : Except Trap Nat :=
  let n := p.toNat
  let within := fun (core : Nat) =>
    if s.inCoreSet s.ctx.rcb core && !(s.usesMatrix s.ctx.rcb && (s.clusterAt (clusterOfCore core)).nomx) then Except.ok core
    else Except.error (Trap.at_ Cause.protection p)
  if n / 2 ^ 60 = 8 then .error (Trap.at_ Cause.addrTag p)
  else match s.resolve s.who p .read with
    | .error c => .error (Trap.at_ c p)
    | .ok (.fab _ _) => .error (Trap.at_ Cause.addrTag p)
    | .ok (.mem key) =>
      if n / 2 ^ 60 ≠ 0 then within s.core
      else match spaceOf key with
        | .loc c => within c
        | .pad c => within (c * 8 + key / 2 ^ 18 % 8)
        | .dram d | .weight d => within (d * 512 + key / 2 ^ 16 % 512)
        | _ => within s.core

/-- Bits as a number, from a list of flags, the first lowest. -/
def flagBits (l : List Bool) : Nat := l.foldr (fun b a => b.toNat + 2 * a) 0

/-- The kid packet of a task: H0 to H3, then g0 to g9; the word of a Dead register is zero (R34). -/
def Ctx.kidPacket (c : Ctx) : List Word :=
  let gs := (List.range 10).map fun d => c.g[Fin.ofNat 16 d]
  [BitVec.ofNat 64 (c.tid.toNat + c.bpSession.toNat * 2 ^ 48 + c.mode.toNat * 2 ^ 56),
   c.pc,
   BitVec.ofNat 64 (c.minRank + c.cmask.toNat * 2 ^ 32 + c.rnd.toNat * 2 ^ 56 + c.ecxsel.toNat * 2 ^ 61),
   BitVec.ofNat 64 (c.pw.toNat + c.wch.toNat * 2 ^ 16 + flagBits (gs.map (·.f)) * 2 ^ 32 + flagBits (gs.map (·.d)) * 2 ^ 42 +
     c.sstat.toNat * 2 ^ 52)] ++ gs.map fun r => if r.d then 0 else r.val

/-- The state that a kid packet brings to a slot (R34). -/
def Ctx.ofPacket (c : Ctx) (ws : List Word) : Ctx :=
  let h := fun (k : Nat) => ws.getD k 0
  { c with
    tid := (h 0).truncate 48, bpSession := (h 0).extractLsb' 48 8, mode := (h 0).getLsbD 56, pc := h 1
    cmask := (h 2).extractLsb' 32 24, rnd := (h 2).extractLsb' 56 5, ecxsel := (h 2).extractLsb' 61 2
    pw := (h 3).truncate 16, wch := (h 3).extractLsb' 16 16, sstat := (h 3).extractLsb' 52 9
    g := Vector.ofFn fun d => if d.val < 10 then
        { val := h (4 + d.val), f := (h 3).getLsbD (32 + d.val), d := (h 3).getLsbD (42 + d.val), tag := none }
      else GReg.init }

/-- The task as it arrives elsewhere (R34, R35): what its packet brings, and what its task record and registry keep. -/
def Ctx.arrive (c : Ctx) : Ctx :=
  { c.ofPacket c.kidPacket with
    v := Vector.replicate 8 VReg.init, lm := BitVec.allOnes 64, elsel := 0, accs := [], holdAll := [], holdRel := []
    holdAllPorts := [], holdRelPorts := [], extern := 0, answered := none, settleDue := false
    cont := .none, saved := [], rdtLoads := 0, rdtMmas := 0, binds := 0 }

/-- A kid packet reaches its destination: a free slot that no waiter may claim, else the run queue; a full run queue holds it
back (R219, R340). A contained core refuses it, and the task stays, its trailing copy too (R375). Both copies of an RDT task
come to the instruction first (R381). -/
def State.arriveKid (s : State) (n : Nat) (i : Fin 16) : State :=
  match (s.ctxAt n i).accs.find? fun a => match a.op with | .migrate _ => true | _ => false with
  | none => s
  | some a => match a.op with
    | .migrate dest =>
      let c := s.ctxAt n i
      if s.isRdt c.rcb && (s.slotAt n (trailSlot i)).st != .ending then s
      else if (s.coreAt dest).contained then
        let s1 := (s.modCtxAt n i fun c => (c.dropAcc a.id).addLate Cause.protection a.pc a.pair 0).setSt n i .ready
        if s.isRdt c.rcb then s1.setSt n (trailSlot i) .ready else s1
      else match (if (s.prioritiesFor dest).isEmpty then s.claimable dest c.rcb else none) with
        | some j => ((s.vacate n i).seat dest j .ready c.arrive)
        | none =>
          if (s.coreAt dest).runq.length < 64 then
            ((s.vacate n i).modCore dest fun x => { x with
              runq := x.runq ++ [{ ctx := c.arrive, seq := s.seq, migrating := none }] }).bump
          else s
    | _ => s

/-! ### What follows a settle (R43) -/

/-- A slot in state 10 goes on once every outstanding result has returned. R51 delivers a late fault at the next issue
opportunity, which a slot that halts no longer has: the fault of an access that fails meanwhile goes with the task, and a
write port whose drain has failed, which RESUME alone would start again, keeps the slot in state 10 until KILL (DESIGN
CHOICE, log 57). -/
def State.settled (s : State) (n : Nat) (i : Fin 16) : State :=
  let sl := s.slotAt n i
  if sl.st = .settle ∧ !sl.ctx.outstanding then
    match sl.ctx.cont with
    | .none => s.setSt n i .ready
    | .halt => if sl.ctx.undrained || s.trailBusy n i then s else s.haltNow n i
    | .haltSeat => if s.noticeWaits sl.ctx.tid then s else s.haltSeat n i
    | .trap cause code pc pair =>
      (s.modCtxAt n i fun c => { c with cont := .none }).takeTrap n i (deliberate cause code pc pair)
    | .migrate core pc pair =>
      let a : Access := { id := s.seq, pc := pc, pair := pair, op := .migrate core, park := true, resends := 0, lv := none, rid := s.seq, done := 0, bad := none }
      ((s.modCtxAt n i fun c => { c with cont := .none, accs := [a] }).setSt n i .mem).bump
  else s

/-- Does the leading copy of the issuing slot's task migrate to another core (R381)? -/
def State.leadMigrates (s : State) : Bool :=
  let c := s.ctxAt s.core (leadSlot s.slot)
  (c.accs.any fun a => match a.op with | .migrate _ => true | _ => false) || match c.cont with | .migrate .. => true | _ => false

/-- R219. The trailing copy of an RDT task follows its leading copy, and waits in state 13 (R381; log 24). -/
def planMigr (a : GIx) (s : State) : Plan :=
  gated s [a] [] [] [] (
    if s.rdt && s.ctx.trail then .go id fun _ t => if s.leadMigrates then t.enter .ending else t.settleIf true
    else match s.migrTarget (s.gv a) with
    | .error t => .trap t
    | .ok core =>
      if s.ctx.ports.toList.any (·.isSome) || (s.cur.shapes.toList.any fun sh => sh.inuse && sh.owner == BitVec.ofNat 4 s.slot.val) then
        .trap (Trap.plain Cause.migrateState)
      else .go id fun _ t =>
        if core = s.core then t.settleIf true
        else ((t.modCtx fun c => { c with cont := .migrate core s.ctx.pc s.pair }).enter .settle).settled t.core t.slot)

/-- A result of a thread returns: its slot leaves state 3, 4, 5, 9 or 10 when it may (R43, R153), and the slot of its leading
copy where it waits for it (R120). `own` says that the operation had parked the slot. -/
def State.goOn (s : State) (n : Nat) (i : Fin 16) (own : Bool) : State :=
  let s1 := (s.unpark n i own).settled n i
  if (s.ctxAt n i).trail then s1.settled n (leadSlot i) else s1

/-! ### Trap records and dumps (R276, R377, R378) -/

/-- An in-flight entry of the dump, 80 bytes (R378). -/
def dumpEntry (f : InFlight) : List Byte :=
  bytesLE 8 f.addr.toNat ++ bytesLE 8 (f.size % 128 + f.atomic.toNat * 256 + f.status.toNat * 2 ^ 16) ++
    bytesLE 64 (if f.atomic then f.data + 2 ^ 64 * f.old.toNat else f.data)

/-- A channel entry of the dump, 16 bytes (R378). -/
def dumpChan (h : Nat) (c : Chan) : List Byte :=
  bytesLE 8 (h % 4096 + c.failed.toNat * 2 ^ 12 + c.group.toNat * 2 ^ 14 + c.reliable.toNat * 2 ^ 15 + c.gen.toNat * 2 ^ 16 + c.unrel % 2 ^ 24 * 2 ^ 40) ++
    bytesLE 8 ((c.released + 1) % 2 ^ 48 + c.dest.toNat % 1024 * 2 ^ 48)

/-- The dump of a fault, at 0x3000 of the context area (R377, R378). -/
def State.writeDump (s : State) (n k : Nat) (c : Ctx) (t : TrapRec) : State :=
  let base := c.area + 0x3000
  let hs := s.handlesOf c.tid
  let fl := c.inflight.take 16
  let head := bytesLE 8 (c.dseq + 1) ++ bytesLE 8 (t.cause.toNat + t.late.toNat * 256 + c.tid.toNat * 2 ^ 16) ++
    bytesLE 8 t.pc.toNat ++ bytesLE 8 (fl.length + min hs.length 32 * 2 ^ 8 + (hs.length - 32) * 2 ^ 32)
  let chans := (hs.take 32).flatMap fun h => match tabGet (s.dieAt (h / 1024 % 4)).chans (h % 1024) with
    | some x => dumpChan h x
    | none => []
  (((s.storeBytes base head).storeBytes (base + 0x40) (fl.flatMap dumpEntry)).storeBytes (base + 0x540) chans).modHeld n k
    fun c => { c with dseq := c.dseq + 1 }

/-- The trap record of a fault (R276). -/
def trapPayload (c : Ctx) (n : Nat) (i : Fin 16) (peer : Nat) (t : TrapRec) : List Word :=
  [2, c.tid.zeroExtend 64,
   BitVec.ofNat 64 (t.cause.toNat + t.late.toNat * 2 ^ 8 + i.val * 2 ^ 16 + (peer * 2 ^ 11 + n) * 2 ^ 32),
   t.pc, t.addr, t.ranks, t.pair]

/-- The delivery of a trap record to its vector (R276). -/
def State.deliverTrap (s : State) (n k : Nat) (c : Ctx) (t : TrapRec) : State :=
  let from_ := if c.supervisor then s.rcbParent c.rcb else c.rcb
  let r := (s.trapRegion 64 from_).getD 0
  let m : Msg :=
    { id := s.seq, kind := .trapRecord, rcb := r, pc := s.trapVec r, payload := trapPayload c n c.faultSlot s.hub.peer.toNat t
      sender := none, ob := none, obls := [], core := n, fixed := false, about := c.tid, aboutNo := c.dseq }
  let s1 := (s.modHeld n k fun c => { c with handled := true }).bump
  if r = 0 then s1.modHub fun h => { h with notices := h.notices ++ [.trapToService m] }
  else s1.modCore n fun x => { x with msgs := x.msgs ++ [m] }

/-- TRAP_RECORD: once the thread's relaxed accesses and atomics are done, the dump is written and the record delivered
(R276, R377). A task that has been pre-empted with its trap pending is found in its image, at place 16 and up of its core.
A breakpoint stop goes to its session instead (R280), and a record being handled holds back the next (R279). -/
def execTrapRecord (core slot : Nat) (s : State) : Host.Outcome State Fault Refusal :=
  .next (match s.heldAt core slot with
    | none => s
    | some c => match c.trap with
      | some t =>
        if s.heldSt core slot = .faulted ∧ !c.handled ∧ t.cause ≠ Cause.breakpoint ∧ !(c.accs.any (·.counted)) then
          (s.writeDump core slot c t).deliverTrap core slot { c with dseq := c.dseq + 1 } t
        else s
      | none => s)

/-- LATE_FAULT: at its next issue opportunity a slot takes the oldest late fault that is pending (R51). -/
def execLateFault (core slot : Nat) (s : State) : Host.Outcome State Fault Refusal :=
  let i : Fin 16 := Fin.ofNat 16 slot
  let sl := s.slotAt core i
  match sl.ctx.late with
  | t :: rest =>
    if sl.st = .ready ∨ sl.st = .issued then .next ((s.modCtxAt core i fun c => { c with late := rest }).takeTrap core i t)
    else if sl.st = .object ∧ sl.ctx.wait.isSome then
      .next (((s.withdraw sl.ctx.tid).modCtxAt core i fun c => { c.withdrawn with late := rest }).takeTrap core i t)
    else .next s
  | [] => .next s

/-- ENCODING_FAULT: the pair does not decode (R44, R46, R48, R68). -/
def execEncodingFault (s : State) : Host.Outcome State Fault Refusal := .next (s.trapNow (Trap.plain Cause.illegal))

/-- FETCH_FAULT: a fetch outside the code bounds, or one that finds an uncorrectable error, whose unit the home then marks
poisoned; the record has no pair words (R119, R276, R321). -/
def execFetchFault (uncorrectable : Bool) (s : State) : Host.Outcome State Fault Refusal :=
  let pc := s.ctx.pc
  let stop := fun (s : State) (cause : BitVec 8) =>
    s.takeTrap s.core s.slot { cause := cause, late := false, pc := pc, addr := pc, ranks := 0, pair := 0 }
  .next (
    if pc < s.codeBase s.ctx.rcb ∨ s.codeEnd s.ctx.rcb ≤ pc then (if uncorrectable then s else stop s Cause.fetchBound)
    else if !uncorrectable then s
    else match s.resolve s.who pc .fetch with
      | .ok (.mem key) => stop (s.foundError key 8) Cause.uncorrectable
      | _ => s)

/-- MIGRATION_ARRIVAL: the kid packet of slot `n` mod 16 of core `n` / 16 reaches its destination (R219). -/
def execMigrationArrival (n : Nat) (s : State) : Host.Outcome State Fault Refusal := .next (s.arriveKid (n / 16) (Fin.ofNat 16 n))


/-! ### The meanings: each instruction alone in its pair -/

/-- Br (R116). -/
def execBr (off : BitVec 19) (s : State) : Host.Outcome State Fault Refusal :=
  .next (issueOne (planBr off s) s)

/-- BrWide (R116). -/
def execBrWide (lit : BitVec 32) (s : State) : Host.Outcome State Fault Refusal :=
  .next (issueOne (planBrWide lit s) s)

/-- Call (R20, R116, R118). -/
def execCall (off : BitVec 19) (s : State) : Host.Outcome State Fault Refusal :=
  .next (issueOne (planCall off s) s)

/-- CallWide (R116). -/
def execCallWide (lit : BitVec 32) (s : State) : Host.Outcome State Fault Refusal :=
  .next (issueOne (planCallWide lit s) s)

/-- Jmp (R41, R117). -/
def execJmp (a : GIx) (s : State) : Host.Outcome State Fault Refusal :=
  .next (issueOne (planJmp a s) s)

/-- Callr (R117). -/
def execCallr (a : GIx) (s : State) : Host.Outcome State Fault Refusal :=
  .next (issueOne (planCallr a s) s)

/-- Ret (R117). -/
def execRet (s : State) : Host.Outcome State Fault Refusal :=
  .next (issueOne (planRet s) s)

/-- Cnop (R44). -/
def execCnop (s : State) : Host.Outcome State Fault Refusal :=
  .next (issueOne (planCnop s) s)

/-- Halt (R202, R203, R120). -/
def execHalt (s : State) : Host.Outcome State Fault Refusal :=
  .next (issueOne (planHalt s) s)

/-- Trapi (R121). -/
def execTrapi (code : BitVec 8) (s : State) : Host.Outcome State Fault Refusal :=
  .next (issueOne (planTrapi code s) s)

/-- Syscall (R121). -/
def execSyscall (code : BitVec 8) (s : State) : Host.Outcome State Fault Refusal :=
  .next (issueOne (planSyscall code s) s)

/-- Migr (R220, R219). -/
def execMigr (a : GIx) (s : State) : Host.Outcome State Fault Refusal :=
  .next (issueOne (planMigr a s) s)

end Sys2Proof.Machine
end

