-- ==== Sys2Proof/Machine/Complete.lean ====
section
/-! DEFINITION. How outstanding operations end: ACCESS_COMPLETE, REGISTER_FILL, the stream events and the fabric
timeouts of one access (08, R153 to R161, R169, R177; 18, R321). -/

namespace Sys2Proof.Machine

/-- Containment of a core is due: it moves next (R373, R374; log 2). -/
def State.dueContainment (s : State) (n : Nat) : State := { s with agenda := .event (.containment n) :: s.agenda }

/-- The in-flight list of a fault hears how an access ended (R378). -/
def noteDone (id : Nat) (status : BitVec 8) (old : Word) (l : List InFlight) : List InFlight :=
  l.map fun f => if f.id = id then { f with status := status, old := old } else f
/-- So do the lists of the late faults that still wait (R51, R378). -/
def Ctx.noteDone (c : Ctx) (id : Nat) (status : BitVec 8) (old : Word) : Ctx :=
  { c with
    inflight := Machine.noteDone id status old c.inflight
    late := c.late.map fun t => { t with inflight := Machine.noteDone id status old t.inflight } }

/-- The mailbox status of a cause, for the dump (R214, R378; log 19). -/
def statusOfCause (c : BitVec 8) : BitVec 8 :=
  if c = Cause.translation then 0x01 else if c = Cause.protection then 0x02 else if c = Cause.uncorrectable then 0x03
  else if c = Cause.addrTag then 0x04 else if c = Cause.misalign then 0x08 else 0x06

/-- The destination of a failed operation becomes Dead (R51). -/
def Ctx.failFor (c : Ctx) (op : AccOp) (id : Nat) : Ctx := match op with
  | .loadG d _ _ _ _ | .atomic d _ _ _ | .reduce d _ _ | .wcopen d _ _ _ => c.failG d id
  | .loadV d _ _ _ => c.failV d id
  | _ => c

/-- The words of a leading copy's load go to the load-value queue, none where it fails (R380). -/
def State.queueValue (s : State) (n : Nat) (i : Fin 16) (a : Access) (ws : List Word) : State := match a.lv with
  | some k => s.modCore n fun c => { c with lvq := c.lvq ++ [(i, k, ws)] }
  | none => s

/-- The pair that has asked a home is decided next, on its answer (R153, R187). -/
def State.decides (s : State) (n : Nat) (i : Fin 16) : State := { s with agenda := .decide n i :: s.agenda }

/-- An operation fails: a late fault against its pair, detected while the operation is in flight (R51, R378). The
load-value queue gives a trailing copy none (R380). A home that was asked gives its pair the cause. -/
def State.failAcc (s : State) (n : Nat) (i : Fin 16) (a : Access) (cause : BitVec 8) (addr : Word) : State :=
  match a.op with
  | .ask _ => (s.modCtxAt n i fun c => { c.dropAcc a.id with answered := some { err := some cause, words := [] } }).decides n i
  | _ => ((s.modCtxAt n i fun c =>
      (((c.addLate cause a.pc a.pair addr).noteDone a.id (statusOfCause cause) 0).failFor a.op a.id).dropAcc a.id).queueValue
    n i a []).goOn n i a.park

/-- The address that the program gave for the element at a key (R276). -/
def addrOf (hs : List Home) (addrs : List Word) (key : Nat) : Word := (((hs.zip addrs).find? fun e => e.1 == .mem key).map (·.2)).getD 0

/-- The faulting address of an operation that a peer refuses or does not answer (R276); `tag` says which element of a
vector load, where the failure names one. -/
def Access.fabAddr (a : Access) (tag : Option (BitVec 16)) : Word := match a.op with
  | .loadG _ _ _ _ p | .atomic _ _ _ p | .wcopen _ _ _ p => p
  | .loadV _ _ els addrs =>
    match els.find? fun e => (match e.2 with | .fab _ _ => true | _ => false) && tag.all fun t => rtagOf a.rid e.1 == t with
    | some e => addrs.getD e.1 0
    | none => 0
  | _ => 0

/-- A failed read of a key: the home marks a unit poisoned, and the core is contained where the rules say so (R321,
R373). -/
def State.failRead (s : State) (n : Nat) (i : Fin 16) (a : Access) (key len : Nat) (addr : Word) (f : BitVec 8 × Bool) : State :=
  let s1 := s.failAcc n i a f.1 addr
  if f.2 then (s1.foundError key len).dueContainment n else s1

/-- A value arrives in register `d`; a write port takes it as an element (R14, R16). A Dead register discards it (R20). -/
def Ctx.arriveG (c : Ctx) (d : GIx) (a : Access) (v : Word) : Ctx := match a.push with
  | some e => if c.g[d].tag = some a.id ∧ !c.g[d].d then c.pushInto d { e with val := v } (·.fillG d a.id v) else c.fillG d a.id v
  | none => c.fillG d a.id v

/-- The result of an operation in register `d`: it is written with its flags, the operation ends, and the slot goes on. -/
def State.finishG (s : State) (n : Nat) (i : Fin 16) (a : Access) (d : GIx) (v : Word) (f : Flags) : State :=
  ((s.modCtxAt n i fun c => (((c.arriveG d a v).dropAcc a.id).raise f).noteDone a.id 0 v).queueValue n i a [v, f.setWidth 64]).goOn n i a.park

/-- An operation with no result ends, and the slot goes on. -/
def State.finishAcc (s : State) (n : Nat) (i : Fin 16) (a : Access) : State :=
  (s.modCtxAt n i fun c => (c.dropAcc a.id).noteDone a.id 0 0).goOn n i a.park

/-- An outstanding operation changed. -/
def State.modAcc (s : State) (n : Nat) (i : Fin 16) (id : Nat) (f : Access → Access) : State :=
  s.modCtxAt n i fun c => { c with accs := c.accs.map fun x => if x.id = id then f x else x }

/-- The 64-bit words of a vector value. -/
def vecWords (v : VWord) : List Word := (List.range 8).map fun k => BitVec.ofNat 64 (v.toNat / 2 ^ (64 * k))

/-- Element `k` of `n` bytes set in a vector value. -/
def setLaneBytes (n : Nat) (v : VWord) (k x : Nat) : VWord :=
  let sh := 8 * n * k
  let m := 2 ^ (8 * n)
  BitVec.ofNat 512 (v.toNat - v.toNat / 2 ^ sh % m * 2 ^ sh + x % m * 2 ^ sh)

/-- Elements of a vector load that arrive: they are put in place, and the register becomes Full with the last (R153). -/
def State.arriveV (s : State) (n : Nat) (i : Fin 16) (a : Access) (d : VIx) (len : Nat) (got : List (Nat × Nat))
    (rest : List (Nat × Home)) (addrs : List Word) : State :=
  let v := got.foldl (fun v e => setLaneBytes len v e.1 e.2) ((s.ctxAt n i).v[d].val)
  if rest.isEmpty then
    ((s.modCtxAt n i fun c => (c.fillV d a.id v).dropAcc a.id).queueValue n i a (vecWords v)).goOn n i a.park
  else s.modCtxAt n i fun c => { c with
    v := if c.v[d].tag = some a.id then c.v.set d { (c.v[d]) with val := v } else c.v
    accs := c.accs.map fun x => if x.id = a.id then { x with op := .loadV d len rest addrs } else x }

/-- The next element of a vector load in this device is read, in lane order; those of peers come in RDATA packets (R153,
R156, R160). -/
def State.performV (s : State) (n : Nat) (i : Fin 16) (a : Access) (d : VIx) (len : Nat) (els : List (Nat × Home))
    (addrs : List Word) (err : Bool) : State :=
  match els.find? fun e => match e.2 with | .mem _ => true | _ => false with
  | some (lane, .mem k) => match s.dataFault k len err with
    | some f => s.failRead n i a k len (addrs.getD lane 0) f
    | none => s.arriveV n i a d len [(lane, s.load k len)] (els.filter fun e => e.1 != lane) addrs
  | _ => s

/-- An atomic performed at its home in this device (R164). One that meets uncorrectable data is not performed; it is no
consumer that R373 lists. -/
def State.performAtomic (s : State) (n : Nat) (i : Fin 16) (a : Access) (d : GIx) (op : AtomOp) (k : Nat) (addr : Word) (err : Bool) :
    State :=
  match s.dataFault k op.w err with
  | some f => (if f.2 then s.foundError k op.w else s).failAcc n i a f.1 addr
  | none =>
    let old := s.load k op.w
    let r := op.result old
    let s1 := match r.1 with
      | some v => s.store k op.w v
      | none => s
    s1.finishG n i a d (op.oldWord old) r.2

/-- The second tier reports poison in the line of a store of `n` bytes (R321). -/
def State.lineFound (s : State) (h : Home) (n : Nat) : State := match h with
  | .mem k => match spaceOf k with
    | .second _ => s.foundError k n
    | _ => s
  | .fab _ _ => s

/-- The next piece of a store is performed, in lane order, and the store ends with its last one (R156, R158). The first element
that fails gives its late fault (R51). `err` says that the second tier has found its line poisoned (R321). -/
def State.performStore (s : State) (n : Nat) (i : Fin 16) (a : Access) (len : Nat) (els : List (Home × Nat)) (wch : BitVec 16)
    (addrs : List Word) (err : Bool) : State :=
  let per := storeParts len
  match els[a.done / per]? with
  | none => s.finishAcc n i a
  | some e =>
    let s0 := if err then s.lineFound e.1 len else s
    let r := s0.performPiece n len wch e (a.done % per)
    let bad := a.bad.or (r.2.1.map fun f => (f.1, addrs.getD (a.done / per) 0))
    if a.done + r.2.2 < els.length * per then r.1.modAcc n i a.id fun x => { x with done := x.done + r.2.2, bad := bad }
    else match bad with
      | some f => r.1.failAcc n i a f.1 f.2
      | none => r.1.finishAcc n i a

/-- A REGPUT reaches its target core: it takes one of 16 places there, or is retried; a sealed core refuses it (R177,
R375). -/
def State.performFill (s : State) (n : Nat) (i : Fin 16) (a : Access) (core : Nat) (slot : Fin 16) (reg : GIx) (v : Word) : State :=
  let t := s.coreAt core
  let sl := t.slots[slot]
  if t.contained then s.failAcc n i a Cause.protection 0
  else if sl.st = .empty ∨ sl.ctx.rcb ≠ (s.ctxAt n i).rcb then s.failAcc n i a Cause.protection 0
  else if (sl.ctx.portOf reg).isSome then s.failAcc n i a Cause.stream 0
  else if 16 ≤ t.fills.length ∨ (t.fills.any fun f => f.src.any fun x => x.2.2 == a.id) then s
  else s.modCore core fun c => { c with fills := c.fills ++
    [{ slot := slot, reg := reg, val := v, rcb := (s.ctxAt n i).rcb, src := some (n, i, a.id), eng := none }] }

/-- The bytes of the replay log of a die (R355). -/
def Die.logBytes (d : Die) : Nat := d.replay.foldl (fun a r => a + 32 + r.pkt.payload.length) 0
/-- Does a full replay log hold back a write on this channel (R355)? -/
def State.logFull (s : State) (wch : BitVec 16) : Bool :=
  let h := wch.toNat % 4096
  match tabGet (s.dieAt (h / 1024 % 4)).chans (h % 1024) with
  | some c => c.reliable && decide (64 * 2 ^ 20 ≤ (s.dieAt (h / 1024 % 4)).logBytes)
  | none => false

/-- What ACCESS_COMPLETE does to the outstanding operation `a`. -/
def State.complete (s : State) (n : Nat) (i : Fin 16) (a : Access) (err : Bool) : State := match a.op with
  | .loadG d len sx (.mem k) addr => match s.dataFault k len err with
    | some f => s.failRead n i a k len addr f
    | none => s.finishG n i a d (extend len sx (s.load k len)) 0
  | .loadV d len els addrs => s.performV n i a d len els addrs err
  | .store len els wch addrs =>
    if s.logFull wch && els[a.done / storeParts len]?.any (fun e => match e.1 with | .fab _ _ => true | _ => false) then s
    else s.performStore n i a len els wch addrs err
  | .atomic d op (.mem k) addr => s.performAtomic n i a d op k addr err
  | .fill core slot reg v => s.performFill n i a core slot reg v
  | .wcopen _ h _ addr => match tabGet (s.dieAt (h.toNat / 1024 % 4)).chans (h.toNat % 1024) with
    | some c => if !c.live && c.opening.isEmpty then
        (s.modDie (h.toNat / 1024 % 4) fun x => { x with chans := tabDel x.chans (h.toNat % 1024) }).failAcc n i a Cause.peerDead addr
      else s
    | none => s
  | .mcst wch off k size addr =>
    if s.logFull wch then s
    else match s.dataFault k size err with
      | some f => (if f.2 then s.foundError k size else s).failAcc n i a f.1 addr
      | none => (s.sendWrite n wch off ((List.range size).map fun j => s.byte (k + j))).finishAcc n i a
  | _ => s

/-- A g register filled from outside: its first read is an acquire (R15, R284). -/
def Ctx.fillFrom (c : Ctx) (reg : GIx) (v : Word) : Ctx := let c1 := c.setG reg v; { c1 with extern := c1.extern ||| gBit reg }

/-- Register `reg` of a slot filled from outside, where it is Empty or Dead (R15); the slot may go on. A leading copy keeps the
value for its trailing copy, with the pairs that it has issued (R380; log 24). -/
def State.fillReg (s : State) (n : Nat) (i : Fin 16) (reg : GIx) (v : Word) : State :=
  let c := s.ctxAt n i
  let s1 := (s.modCtxAt n i fun c => c.fillFrom reg v).goOn n i false
  if s.isRdt c.rcb then s1.modCore n fun x => { x with lvq := x.lvq ++ [(i, fillKey c.pairs reg, [v])] } else s1

/-- A saved task as `f` leaves it: an operation of it has ended. Where that was the one that had parked it, its park is over
(R344). -/
def Image.heard (im : Image) (c : Ctx) : Image :=
  { im with ctx := c, st := if im.st.parked && im.ctx.accs.any (·.park) && !c.accs.any (·.park) then c.goesTo else im.st }

/-- Operation `id` of a saved task ends, with the late fault `f` if it has failed (R344). -/
def Image.ends (im : Image) (id : Nat) (f : Option (BitVec 8)) : Image :=
  match im.ctx.accs.find? fun a => a.id == id, f with
  | none, _ => im
  | some a, some cause => im.heard ((im.ctx.addLate cause a.pc a.pair 0).dropAcc id)
  | some _, none => im.heard (im.ctx.dropAcc id)
/-- Operation `id` of a saved task ends, in whichever image it is. -/
def State.dropSaved (s : State) (id : Nat) (f : Option (BitVec 8)) : State :=
  { s with cores := s.cores.map fun e => (e.1, { e.2 with images := e.2.images.map fun im => im.ends id f }) }

/-- May a fill go into a register: is it Empty or Dead (R15), and has the load-value queue room for it (R380)? -/
def State.fillable (s : State) (n : Nat) (i : Fin 16) (reg : GIx) : Bool :=
  let c := s.ctxAt n i
  (c.g[reg].d || c.g[reg].empty) && (!s.isRdt c.rcb || decide (s.lvUsed n i < 32))

/-- Does the slot of a waiting fill still hold a task of the region that it is for (R177)? -/
def State.fillStands (s : State) (core : Nat) (f : Fill) : Bool :=
  (s.slotAt core f.slot).st != .empty && (s.ctxAt core f.slot).rcb == f.rcb

/-- The outstanding operation `id` of a task in a slot, and the slot, wherever the task has come to since (R344). -/
def State.accPlace (s : State) (id : Nat) : Option (Nat × Fin 16 × Access) :=
  s.cores.findSome? fun e => allSlots.findSome? fun i =>
    (e.2.slots[i].ctx.accs.find? fun a => a.id == id).map fun a => (e.1, i, a)

/-- The REGPUT that sent a fill completes, or fails with the given cause, in the slot or the image of its task (R177, R344). -/
def State.endFill (s : State) (src : Option (Nat × Fin 16 × Nat)) (f : Option (BitVec 8)) : State := match src with
  | none => s
  | some (_, _, id) => match s.accPlace id, f with
    | some (n, i, a), some cause => s.failAcc n i a cause 0
    | some (n, i, a), none => s.finishAcc n i a
    | none, _ => s.dropSaved id f

/-- REGISTER_FILL: entry `n` of a core's fill queue reaches its register, once the register is Empty or Dead and no earlier
entry waits for it (R15, R177). The REGPUT that sent it completes. The spec does not say what becomes of a fill whose slot
has lost its task meanwhile, by its end or into an image: it is refused as it would be on arrival (DESIGN CHOICE,
log 55). -/
def execRegisterFill (core n : Nat) (s : State) : Host.Outcome State Fault Refusal :=
  .next (match (s.coreAt core).fills[n]? with
    | none => s
    | some f =>
      let gone := s.modCore core fun c => { c with fills := c.fills.eraseIdx n }
      if !s.fillStands core f then gone.endFill f.src (some Cause.protection)
      else if ((s.coreAt core).fills.take n).any (fun e => e.slot == f.slot && e.reg == f.reg) then s
      else if s.fillable core f.slot f.reg then (gone.fillReg core f.slot f.reg f.val).endFill f.src none
      else s)

/-- A port of a slot changed. -/
def State.modPort (s : State) (n : Nat) (i : Fin 16) (k : Fin 4) (f : Port → Port) : State :=
  s.modCtxAt n i fun c => { c with ports := c.ports.set k (c.ports[k].map f) }

/-- The port of the trailing copy that goes with one of the leading copy, once it has bound it (R380). -/
def State.twin (s : State) (n : Nat) (i : Fin 16) (k : Fin 4) (p : Port) : Option Port :=
  ((s.ctxAt n (trailSlot i)).ports[k]).bind fun q => if q.no = p.no then some q else none

/-- Elements that a port can take; the trailing copy of an RDT task has its elements from the leading copy (R380). -/
def State.portRoom (s : State) (n : Nat) (i : Fin 16) (p : Port) : Nat := if (s.ctxAt n i).trail then 0 else 8 - p.fifo.length

/-- Elements received by a port. -/
def State.feedPort (s : State) (n : Nat) (i : Fin 16) (k : Fin 4) (vals : List Word) (moved : Nat) : State :=
  s.modPort n i k fun p => { p with
    fifo := p.fifo ++ vals.map fun v => { val := v, pc := 0, pair := 0, held := [], heldPorts := [] }, moved := p.moved + moved }

/-- The access counter of a core counts an element of a stream port, a relaxed access (R169, R275). -/
def State.countElem (s : State) (n : Nat) : State := s.modCore n fun c => { c with pcnt3 := c.pcnt3 + 1 }

/-- STREAM_ELEMENT_FETCH: a read-bound port takes its next element ahead; an address that fails is left to the pair
that would pop it (R169). The element is read at any instant after SBIND, whatever the thread has stored since (R291). No
pair has popped the element when uncorrectable data is found: the fault is reported against the pair that bound the port, which
fetches no more until RESUME (DEDUCED, log 56). A port with BASE = 0, which an engine may feed, never fetches of itself: the
spec asks for BASE = 0 of a fed port only (R211), and does not say so of the fetch (DESIGN CHOICE, log 63). -/
def execStreamElementFetch (core slot : Nat) (port : Fin 4) (s : State) : Host.Outcome State Fault Refusal :=
  let i : Fin 16 := Fin.ofNat 16 slot
  let c := s.ctxAt core i
  .next (match c.ports[port] with
    | none => s
    | some p =>
      if p.wr || p.halted || p.base == 0 || s.portRoom core i p == 0 || decide (p.count ≤ p.moved) then s
      else
        let n := 2 ^ p.size
        match s.portElement (c.who core) p p.moved .read with
        | .ok (.mem k) =>
          match s.dataFault k n false with
          | some f =>
            let s1 := ((s.countElem core).modPort core i port fun q => { q with halted := true }).modCtxAt core i
              fun c => c.addLate f.1 p.pc p.pair (p.elem p.moved)
            if f.2 then (s1.foundError k n).dueContainment core else s1
          | none => ((s.countElem core).feedPort core i port [extend n p.sx (s.load k n)] 1).goOn core i false
        | _ => s)

/-- The element that the trailing copy has pushed beside the leading copy's oldest one (R381): none while it has pushed
none. -/
def State.twinHead (s : State) (n : Nat) (i : Fin 16) (k : Fin 4) (p : Port) : Option Word :=
  (s.twin n i k p).bind fun q => q.fifo.head?.map (·.val)

/-- The oldest element of a write port is gone, from both copies (R381). -/
def State.drained (s : State) (n : Nat) (i : Fin 16) (k : Fin 4) : State :=
  let put := fun (p : Port) => { p with fifo := p.fifo.drop 1, moved := p.moved + 1 }
  let s1 := s.modPort n i k put
  if s.isRdt (s.ctxAt n i).rcb then s1.modPort n (trailSlot i) k put else s1

/-- REDUNDANCY_MISMATCH: a late fault against the leading copy's pair, and the core is contained (R373, R381). -/
def State.mismatch (s : State) (n : Nat) (i : Fin 16) (pc pair : Word) : State :=
  (s.modCtxAt n i fun c => c.addLate Cause.redundancyMismatch pc pair 0).dueContainment n

/-- Does an outstanding access of a task share a word with `n` bytes at a home (R154)? -/
def State.meets (s : State) (n : Nat) (c : Ctx) (len : Nat) (h : Home) : Bool :=
  c.accs.any fun a => ((s.coreAt n).accWords a).any fun w => (h.words len).contains w

/-- Is an element of a write port held back (R154, R167): by a FENCE before its pair, by an outstanding access to its word, or
by an element of an earlier pair to its word that another port is still to write? -/
def State.elemHeld (s : State) (n : Nat) (c : Ctx) (e : Elem) (len : Nat) (h : Home) : Bool :=
  c.anyOut e.held || c.anyDue e.heldPorts || s.meets n c len h ||
    (c.portWords s (c.who n) (some e.before)).any fun w => (h.words len).contains w

/-- STREAM_DRAIN: a write-bound port stores its oldest element as a relaxed store; a failure is a late fault of the pair
that pushed it, and the port stops until RESUME (R169, R162). An element of an RDT task waits for the trailing copy's
(R381). -/
def execStreamDrain (core slot : Nat) (port : Fin 4) (s : State) : Host.Outcome State Fault Refusal :=
  let i : Fin 16 := Fin.ofNat 16 slot
  let c := s.ctxAt core i
  .next (match c.ports[port] with
    | none => s
    | some p => match p.fifo with
      | [] => s
      | e :: _ =>
        if !p.wr || p.halted || c.trail then s
        else if s.isRdt c.rcb && (s.twinHead core i port p).isNone then s
        else if s.isRdt c.rcb && s.twinHead core i port p != some e.val then s.mismatch core i e.pc e.pair
        else
          let n := 2 ^ p.size
          let fail := fun (cause : BitVec 8) => ((s.modPort core i port fun p => { p with halted := true }).modCtxAt core i
            fun c => c.addLate cause e.pc e.pair (p.elem p.moved)).goOn core i false
          match s.portElement (c.who core) p p.moved .write with
          | .error t => fail t.cause
          | .ok (.fab _ _) => fail Cause.addrTag
          | .ok (.mem k) =>
            if s.elemHeld core c e n (.mem k) then s
            else if s.frozen core (.mem k) then fail Cause.weightWrite
            else match (s.countElem core).performStores core n 0 [(.mem k, e.val.toNat)] none with
              | (s1, none) => (s1.drained core i port).goOn core i false
              | (_, some f) => fail f.1)

/-- ATOMIC_TIMEOUT: a remote atomic without a reply for 1 ms fails with CHANNEL, and is not sent again (R161). -/
def execAtomicTimeout (core slot id : Nat) (s : State) : Host.Outcome State Fault Refusal :=
  let i : Fin 16 := Fin.ofNat 16 slot
  .next (match (s.ctxAt core i).accs.find? fun a => a.id == id with
    | some a => match a.op with
      | .atomic _ _ (.fab _ _) addr => s.failAcc core i a Cause.channel addr
      | _ => s
    | none => s)

end Sys2Proof.Machine
end

