-- ==== Sys2Proof/Machine/ObjOps.lean ====
section
/-! DEFINITION. The instructions on sync objects and messages (09, R181 to R201; 10, R217, R218, R221), and the events
that follow from waiting (R196, R206). -/

namespace Sys2Proof.Machine

/-! ### Naming an object (R181) -/

/-- Homes at which no object lies (R181). -/
def objHome (key : Nat) : Bool := match spaceOf key with
  | .pad _ | .weight _ | .host => false
  | _ => true

/-- The key of an object's address, or the fault: checks 1 to 3 of R181. -/
def State.objKey (s : State) (w : Who) (p : Word) (k : AccKind) : Except Trap Nat :=
  if p.toNat / 2 ^ 60 = 8 then .error (Trap.at_ Cause.addrTag p)
  else match s.element w p 64 64 k with
    | .error t => .error t
    | .ok (.fab _ _) => .error (Trap.at_ Cause.addrTag p)
    | .ok (.mem key) => if objHome key then .ok key else .error (Trap.at_ Cause.protection p)

/-- What the home refuses before the operation itself: a record that cannot be read (R330), and check 4 of R181, which `new`
leaves out. `err` is an error that it finds. -/
def State.objFault (s : State) (p : Word) (key : Nat) (new err : Bool) : Option Trap :=
  match s.dataFault key 64 err with
  | some f => some (Trap.at_ f.1 p)
  | none => if new || (s.obj key).valid then none else some (Trap.at_ Cause.protection p)

/-- The key of the record at an address, or the fault, in the order of R181. -/
def State.objAt (s : State) (w : Who) (p : Word) (k : AccKind) (new : Bool) : Except Trap Nat :=
  match s.objKey w p k with
  | .error t => .error t
  | .ok key => match s.objFault p key new false with
    | some t => .error t
    | none => .ok key

/-- An operation on an object that its home accepts: the home tells the sweep engines of it (R257). -/
def Plan.onObject (key : Nat) : Plan → Plan
  | .commit r now after => .commit r (fun t => now (t.pokeIdle key)) after
  | p => p

/-- An instruction on the object at g(a), a plain access: its address is checked at issue, and its home decides on the pair
(R181, R187). -/
def objPlan (s : State) (gs gd : List GIx) (a : GIx) (k : AccKind) (new : Bool) (f : Nat → SObj → Plan) : Plan :=
  gated s gs [] gd [] (
    if s.plainBlocked then .park .mem
    else match s.objKey s.who (s.gv a) k with
      | .error t => .trap t
      | .ok key => asked s .home (match s.objFault (s.gv a) key new s.ctx.answerBad with
        | some t => .trap t
        | none => (f key (s.obj key)).onObject key))

/-- The effect that the home accepts. -/
def objAct (f : State → State) : Plan := .act fun t => f t.count3

/-- The registry of the issuing task set. -/
def State.setObls (s : State) (l : List Obl) : State := s.modCtx fun c => { c with obls := l }

/-- Does the object take obligations only through the fabric (R180)? -/
def SObj.fabricKind (o : SObj) : Bool := o.kind == 4 || o.kind == 5

/-! ### Creating (R189, R190) -/

/-- A record written whole (R179, R189). -/
def State.newObj (s : State) (key : Nat) (o : SObj) : State := (s.storeBytes key (List.replicate 64 0)).putObj key o

/-- The record of a new object (R179, R189). -/
def freshObj (kind rank v : Nat) : SObj :=
  { rank := rank, pcode := 0, poisoned := false, kind := kind, value := if kind = 2 then 0 else v, phase := 0
    count := if kind = 2 then v else 0, arrived := 0, owed := 0, wdie := 0, wcnt := 0 }

/-- R189. -/
def planObnew (k : ObjKind) (d a b : GIx) (s : State) : Plan :=
  let kind := kindCode k
  let v := (s.gv b).toNat
  effect s [a, b] [d] true (objPlan s [a, b] [d] a .write true fun key o =>
    let own := s.windowOwner 64 s.ctx.rcb
    let rank := if o.valid then o.rank else 0
    if o.valid && (o.owed != 0 || o.wcnt != 0) then .trap (Trap.at_ Cause.protection (s.gv a))
    else if kind = 2 ∧ (v = 0 ∨ 65535 < v) then .trap (objTrap Cause.objOversub (s.gv a) rank s.ctx.minRank)
    else if s.dynTop own ≤ s.nextChild own then .trap (objTrap Cause.rankExhausted (s.gv a) rank s.ctx.minRank)
    else
      let r := s.dynTop own - 1
      objAct fun t => ((t.store (own.toNat + 0x50) 4 r).newObj key (freshObj kind r v)).writeG d (BitVec.ofNat 64 r))

/-- R190. -/
def planRnkwin (d b : GIx) (s : State) : Plan :=
  let w := (s.gv b).toNat
  let own := s.windowOwner 64 s.ctx.rcb
  let lo := s.nextChild own
  effect s [b] [d] true (gated s [b] [] [d] [] (
    if s.plainBlocked then .park .mem
    else asked s .home (if w = 0 ∨ 2 ^ 31 < w ∨ s.dynTop own < lo + w then .trap (objTrap Cause.rankExhausted 0 0 s.ctx.minRank)
    else objAct fun t => (t.store (own.toNat + 0x4C) 4 (lo + w)).writeG d (BitVec.ofNat 64 lo))))

/-! ### Taking and discharging (R191, R192, R194, R195) -/

/-- R191. -/
def planOblige (a : GIx) (s : State) : Plan :=
  let p := s.gv a
  effect s [a] [] true (objPlan s [a] [] a .write false fun key o =>
    if o.fabricKind then .trap (Trap.at_ Cause.protection p)
    else if (o.isBarrier && o.owed == o.count) || !registryRoom s.ctx.obls (.local_ key) then
      .trap (objTrap Cause.objOversub p o.rank s.ctx.minRank)
    else objAct fun t => (t.setObls (addObl s.ctx.obls key p o)).changeObj key { o with owed := o.owed + 1 })

/-- R192. -/
def planSignal (a b : GIx) (s : State) : Plan :=
  let p := s.gv a
  effect s [a, b] [] true (objPlan s [a, b] [] a .write false fun key o =>
    if o.fabricKind then .trap (Trap.at_ Cause.protection p)
    else match findObl s.ctx.obls (.local_ key) with
      | none => .trap (objTrap Cause.noObligation p o.rank s.ctx.minRank)
      | some e => objAct fun t =>
        let r := signalObj o e (s.gv b).toNat
        (t.setObls (putObl s.ctx.obls r.2)).changeObj key r.1)

/-- An arrival of one seat on a barrier (R194). -/
def arriveObj (o : SObj) (e0 : Obl) : SObj × Obl :=
  let e := e0.sync o
  let o1 := { o with arrived := o.arrived + 1 }
  (if o1.arrived = o1.count then o1.completePhase else o1, { e with ar := e.ar + 1 })

/-- R194. -/
def planArrive (a : GIx) (s : State) : Plan :=
  let p := s.gv a
  effect s [a] [] true (objPlan s [a] [] a .write false fun key o =>
    if o.fabricKind then .trap (Trap.at_ Cause.protection p)
    else match findObl s.ctx.obls (.local_ key) with
      | none => .trap (objTrap Cause.noObligation p o.rank s.ctx.minRank)
      | some e =>
        if !o.isBarrier || decide ((e.sync o).m ≤ (e.sync o).ar) then .trap (objTrap Cause.noObligation p o.rank s.ctx.minRank)
        else if o.poisoned then objAct fun t => t.setObls (putObl s.ctx.obls (e.sync o))
        else objAct fun t =>
          let r := arriveObj o e
          (t.setObls (putObl s.ctx.obls r.2)).changeObj key r.1)

/-- R195. -/
def planPoison (a : GIx) (code : BitVec 8) (s : State) : Plan :=
  let p := s.gv a
  if 0xF0 ≤ code.toNat ∧ !s.ctx.mode then gated s [a] [] [] [] (.trap (Trap.plain Cause.priv))
  else effect s [a] [] true (objPlan s [a] [] a .write false fun key o =>
    match findObl s.ctx.obls (.local_ key) with
    | none => .trap (objTrap Cause.noObligation p o.rank s.ctx.minRank)
    | some e => objAct fun t =>
      let r := poisonObj o e code.toNat
      (t.setObls (putObl s.ctx.obls r.2)).changeObj key r.1)

/-! ### Waiting (R196 to R199, R221) -/

/-- A wait that completes as it issues: the status word is written, POISONSEEN with ST 01 (R196). -/
def State.waitDone (s : State) (d : GIx) (st code : Nat) : State :=
  let s1 := (if st = 1 then s.raise Flag.poisonseen else s).writeG d (waitStatus st code)
  if s1.rdt then s1.keepLv [waitStatus st code] else s1

/-- The task waits for an object: it joins the waiters, and WCNT and WDIE count it (R193, R196). -/
def State.joinWaiters (s : State) (key : Nat) (target : Word) (d : GIx) (sh : Bool) (pc : Word) : State :=
  let w : Waiter := { key := key, target := target, who := .task s.ctx.tid }
  ((s.modCtx fun c => { c with wait := some { on := .obj key target, dst := some d, sh := sh, pc := pc, pair := s.pair } }).modHub
    fun h => { h with waiters := h.waiters ++ [w] }).countIn key w

/-- Has a task a bound stream port or an in-use tile (R33, R219)? -/
def State.cannotMove (s : State) (n : Nat) (i : Fin 16) : Bool :=
  (s.ctxAt n i).ports.toList.any (·.isSome) ||
    (s.coreAt n).shapes.toList.any fun sh => sh.inuse && sh.owner == BitVec.ofNat 4 i.val

/-- A wait that does not complete at issue parks the task; SHELVE's slot goes to state 11, and PRE_EMPTION_SAVE writes its
image (R11, R196, R221). -/
def State.parkWait (s : State) (key : Nat) (target : Word) (d : GIx) (sh shelve : Bool) (pc : Word) : State :=
  (s.joinWaiters key target d sh pc).enter (if shelve then .shelving else .object)

/-- The decisions of WAIT (R196); `shelve` gives the slot up where WAIT parks (R221). -/
def waitPlan (s : State) (d a b : GIx) (sh shelve : Bool) : Plan :=
  let p := s.gv a
  effect s [a, b] [d] false (objPlan s [a, b] [d] a .write false fun key o =>
    if s.ctx.minRank ≤ o.rank then .trap (objTrap Cause.obrank p o.rank s.ctx.minRank)
    else if o.poisoned then objAct fun t => t.waitDone d 1 o.pcode
    else if o.cond (s.gv b) then objAct fun t => t.waitDone d 0 0
    else if o.unowed then .trap (objTrap Cause.unownedWait p o.rank s.ctx.minRank)
    else .go State.count3 fun _ t => t.parkWait key (s.gv b) d sh shelve s.ctx.pc)

/-- R196. -/
def planWait (d a b : GIx) (s : State) : Plan := waitPlan s d a b false false
/-- R196. -/
def planWaitSh (d a b : GIx) (s : State) : Plan := waitPlan s d a b true false
/-- R221: MIGRATE_STATE comes before the object is read. -/
def planShelve (d a b : GIx) (s : State) : Plan :=
  if s.cannotMove s.core s.slot then gated s [a, b] [] [d] [] (.trap (Trap.plain Cause.migrateState))
  else waitPlan s d a b false true

/-- R198. -/
def planWaita (d a : GIx) (s : State) : Plan :=
  let p := s.gv a
  effect s [a] [d] false (objPlan s [a] [d] a .write false fun key o =>
    match findObl s.ctx.obls (.local_ key) with
    | none => .trap (objTrap Cause.noObligation p o.rank s.ctx.minRank)
    | some e =>
      let others := minRank (s.ctx.obls.filter fun x => x.ref != .local_ key)
      let e' := e.sync o
      if !o.isBarrier then .trap (objTrap Cause.noObligation p o.rank s.ctx.minRank)
      else if others ≤ o.rank then .trap (objTrap Cause.obrank p o.rank s.ctx.minRank)
      else if o.poisoned then objAct fun t => t.waitDone d 1 o.pcode
      else if e'.m ≤ e'.ar then .trap (objTrap Cause.noObligation p o.rank s.ctx.minRank)
      else if o.arrived + 1 < o.count ∧ o.owed < o.count then .trap (objTrap Cause.unownedWait p o.rank s.ctx.minRank)
      else
        let r := arriveObj o e
        let come := fun (t : State) => (t.count3.setObls (putObl s.ctx.obls r.2)).changeObj key r.1
        if r.1.phase ≠ o.phase then .act fun t => (come t).waitDone d 0 0
        else .go come fun _ t => t.parkWait key (BitVec.ofNat 64 o.phase) d false false s.ctx.pc)

/-- R199. -/
def planTlwait (e : Fin 4) (b : GIx) (s : State) : Plan :=
  let x := s.cur.ecx[e]
  let t := s.gv b
  effect s [b] [] true (gated s [b] [] [] [] (
    if s.ctx.minRank = 0 then .trap (objTrap Cause.obrank 0 0 0)
    else if t.toNat ≤ x.line then Plan.nop
    else if x.issued < t.toNat then .trap (objTrap Cause.unownedWait 0 0 s.ctx.minRank)
    else .go id fun _ u => (u.modCtx fun c => { c with
      wait := some { on := .line e t, dst := none, sh := false, pc := s.ctx.pc, pair := s.pair } }).enter .object))

/-! ### Moving and querying (R200, R201) -/

/-- The rank of what a task waits on, while it waits (R200). -/
def State.waitRank (s : State) (c : Ctx) : Option Nat := c.wait.map fun w => match w.on with
  | .obj key _ => (s.obj key).rank
  | _ => 0

/-- R200: while a home is yet to answer the target, on a wait perhaps, the transfer waits; a wait of the target on an object
whose rank is not above the moved rank refuses the move (log 20). A TID that cannot be the target is no address (R296). -/
def planXfer (a b : GIx) (s : State) : Plan :=
  let p := s.gv a
  let tid : BitVec 48 := (s.gv b).truncate 48
  effect s [a, b] [] true (objPlan s [a, b] [] a .write false fun key o =>
    match (if (s.gv b).toNat / 2 ^ 48 = 0 then s.taskCtx tid else none) with
    | none => .trap (Trap.plain Cause.protection)
    | some (_, c) =>
      if c.accs.any (fun x => x.op == .ask .home) then .park .mem
      else if !s.descends s.ctx.rcb 64 c.rcb then .trap (Trap.plain Cause.protection)
      else match findObl s.ctx.obls (.local_ key) with
        | none => .trap (objTrap Cause.noObligation p o.rank s.ctx.minRank)
        | some e =>
          if (match s.waitRank c with | some r => decide (r ≤ e.rank.toNat) | none => false) then
            .trap (objTrap Cause.obrank p o.rank s.ctx.minRank)
          else if !registryRoom c.obls (.local_ key) then .trap (objTrap Cause.objOversub p o.rank s.ctx.minRank)
          else objAct fun t =>
            if tid = s.ctx.tid then t
            else
              let r := moveObl s.ctx.obls c.obls e o
              (t.setObls r.1).modTask tid fun x => { x with obls := r.2 })

/-- The word of OBQRY (R201). -/
def queryWord (o : SObj) (held : Bool) : Word :=
  BitVec.ofNat 64 (o.rank * 2 ^ 32 + o.poisoned.toNat * 2 ^ 31 + held.toNat * 2 ^ 30 + o.pcode * 2 ^ 16 + min o.owed 0xFFF * 16 + o.kind)

/-- R201. -/
def planObqry (d a : GIx) (s : State) : Plan :=
  effect s [a] [d] true (objPlan s [a] [d] a .read false fun key o =>
    objAct fun t => t.writeG d (queryWord o (findObl s.ctx.obls (.local_ key)).isSome))

/-! ### SEND (R217, R218) -/

/-- The payload registers of a SEND of `n` + 1 words. -/
def sendRegs (b : GIx) (n : Fin 8) : List GIx := (List.range (n.val + 1)).map fun k => Fin.ofNat 16 (b.val + k)

/-- The checks of a target word (R217): the target core and the vector; an entry of 0 is one that is not set (R298). The
faults name no address (R296). -/
def sendTarget (s : State) (w : Word) : Except Trap (Nat × Nat) :=
  let t := w.toNat
  let core := t % 2 ^ 11
  let vec := t / 2 ^ 24 % 2 ^ 8
  if t / 2 ^ 32 ≠ 0 ∨ t / 2 ^ 23 % 2 ≠ 0 then .error (Trap.plain Cause.addrTag)
  else if t / 2 ^ 11 % 2 ^ 12 ≠ s.hub.peer.toNat ∨ !s.inCoreSet s.ctx.rcb core ∨ s.mvtEntry s.ctx.rcb vec = 0 then
    .error (Trap.plain Cause.protection)
  else .ok (core, vec)

/-- The message leaves, and the slot stays in state 3 until its claim (R217). -/
def State.sendMsg (s : State) (core vec : Nat) (payload : List Word) (ob : Option ObjRef) : State :=
  let m : Msg :=
    { id := s.seq, kind := .message, rcb := s.ctx.rcb, pc := s.mvtEntry s.ctx.rcb vec, payload := payload
      sender := some s.ctx.tid, ob := ob, obls := [], core := core, fixed := true, about := 0 }
  (s.modCore core fun c => { c with msgs := c.msgs ++ [m] }).startAcc (.send s.seq) true

/-- R217. -/
def planSend (n : Fin 8) (a b : GIx) (s : State) : Plan :=
  let rs := sendRegs b n
  effect s (a :: rs) [] true (gated s (a :: rs) [] [] [] (
    if s.plainBlocked then .park .mem
    else match sendTarget s (s.gv a) with
      | .error t => .trap t
      | .ok (core, vec) => .go (fun t => t.sendMsg core vec (rs.map s.gv) none) fun _ t => parkAfter true t))

/-- R217, R218: with one obligation on the object at g(d); g8 of the handler holds its address. The target word's faults come
before those of the object's address, where the spec gives no order (DESIGN CHOICE, log 72). -/
def planSendOb (n : Fin 8) (d a b : GIx) (s : State) : Plan :=
  let rs := sendRegs b n
  let p := s.gv d
  effect s (d :: a :: rs) [] true (gated s (d :: a :: rs) [] [] [] (
    if s.plainBlocked then .park .mem
    else match sendTarget s (s.gv a), s.objAt s.who p .write false with
      | .error t, _ => .trap t
      | _, .error t => .trap t
      | .ok (core, vec), .ok key =>
        if (s.obj key).fabricKind || (findObl s.ctx.obls (.local_ key)).isNone then .trap (Trap.at_ Cause.protection p)
        else .go (fun t => t.sendMsg core vec (rs.map s.gv ++ List.replicate (8 - rs.length) 0 ++ [p]) (some (.local_ key)))
          fun _ t => parkAfter true t))

/-! ### Events -/

/-- WAIT_SHELVE_TIMEOUT: a WAIT.sh that has stayed parked for 16 µs is shelved, unless a port or a tile keeps the task in its
slot: the slot enters state 11, and its image is written (R11, R196, R33). -/
def execWaitShelveTimeout (core slot : Nat) (s : State) : Host.Outcome State Fault Refusal :=
  let i : Fin 16 := Fin.ofNat 16 slot
  let sl := s.slotAt core i
  .next (match sl.ctx.wait with
    | some w => if w.sh ∧ sl.st = .object ∧ !s.cannotMove core i then s.setSt core i .shelving else s
    | none => s)

/-- ORPHAN_TIMEOUT: service firmware poisons orphan `n` with code 0xFE, 100 ms after it received it (R206). -/
def execOrphanTimeout (n : Nat) (s : State) : Host.Outcome State Fault Refusal :=
  .next (match s.hub.orphans[n]? with
    | some o => (s.modHub fun h => { h with orphans := h.orphans.eraseIdx n }).dischargeAll o.obl (some 0xFE) o.obl.m
    | none => s)

/-! ### The meanings: each instruction alone in its pair -/

/-- Obnew (R181, R330, R276, R275, R187, R180, R189, R190, R179). -/
def execObnew (k : ObjKind) (d a b : GIx) (s : State) : Host.Outcome State Fault Refusal :=
  .next (issueOne (planObnew k d a b s) s)

/-- Rnkwin (R190). -/
def execRnkwin (d b : GIx) (s : State) : Host.Outcome State Fault Refusal :=
  .next (issueOne (planRnkwin d b s) s)

/-- Oblige (R186, R191). -/
def execOblige (a : GIx) (s : State) : Host.Outcome State Fault Refusal :=
  .next (issueOne (planOblige a s) s)

/-- Signal (R192). -/
def execSignal (a b : GIx) (s : State) : Host.Outcome State Fault Refusal :=
  .next (issueOne (planSignal a b s) s)

/-- Arrive (R194). -/
def execArrive (a : GIx) (s : State) : Host.Outcome State Fault Refusal :=
  .next (issueOne (planArrive a s) s)

/-- Poison (R195). -/
def execPoison (a : GIx) (code : BitVec 8) (s : State) : Host.Outcome State Fault Refusal :=
  .next (issueOne (planPoison a code s) s)

/-- Wait (R196, R193, R32, R221, R33, R219). -/
def execWait (d a b : GIx) (s : State) : Host.Outcome State Fault Refusal :=
  .next (issueOne (planWait d a b s) s)

/-- WaitSh (R196). -/
def execWaitSh (d a b : GIx) (s : State) : Host.Outcome State Fault Refusal :=
  .next (issueOne (planWaitSh d a b s) s)

/-- Shelve (R221). -/
def execShelve (d a b : GIx) (s : State) : Host.Outcome State Fault Refusal :=
  .next (issueOne (planShelve d a b s) s)

/-- Waita (R198). -/
def execWaita (d a : GIx) (s : State) : Host.Outcome State Fault Refusal :=
  .next (issueOne (planWaita d a s) s)

/-- Tlwait (R199). -/
def execTlwait (e : Fin 4) (b : GIx) (s : State) : Host.Outcome State Fault Refusal :=
  .next (issueOne (planTlwait e b s) s)

/-- Xfer (R200). -/
def execXfer (a b : GIx) (s : State) : Host.Outcome State Fault Refusal :=
  .next (issueOne (planXfer a b s) s)

/-- Obqry (R201). -/
def execObqry (d a : GIx) (s : State) : Host.Outcome State Fault Refusal :=
  .next (issueOne (planObqry d a s) s)

/-- Send (R217). -/
def execSend (n : Fin 8) (a b : GIx) (s : State) : Host.Outcome State Fault Refusal :=
  .next (issueOne (planSend n a b s) s)

/-- SendOb (R217, R218). -/
def execSendOb (n : Fin 8) (d a b : GIx) (s : State) : Host.Outcome State Fault Refusal :=
  .next (issueOne (planSendOb n d a b s) s)

end Sys2Proof.Machine
end

