-- ==== Sys2Proof/Machine/Tiles.lean ====
section
/-! DEFINITION. Tile and matrix instructions, TLD and TST, and the work of the matrix unit (07, R136 to R152; 08, R172 to
R174). -/

namespace Sys2Proof.Machine

/-! ### Checks and locks (R136, R138) -/

/-- The tile that an accumulating or loading request locks (R138, R174). -/
def MxOp.locks : MxOp → Option TIx
  | .mma td _ _ | .mmai td _ _ | .tld td _ _ _ _ => some td
  | _ => none

/-- LOCK of a tile (R25, R138). -/
def Core.locked (c : Core) (t : TIx) : Bool := c.mxq.any fun r => r.op.locks == some t

/-- The bits of a shape register but for LOCK (R25). -/
def Shape.bits (h : Shape) : Nat :=
  h.rows.toNat + h.cols.toNat * 2 ^ 4 + h.typ.toNat * 2 ^ 8 + h.cfg.toNat * 2 ^ 10 + h.inuse.toNat * 2 ^ 11 + h.dirty.toNat * 2 ^ 12 +
    h.owner.toNat * 2 ^ 14
/-- TSHAPE of a tile as TSTAT reads it (R25). -/
def Core.shapeWord (c : Core) (t : TIx) : Word := BitVec.ofNat 64 ((c.shapes[t]).bits + (c.locked t).toNat * 2 ^ 13)

/-- The physical tile of the issuing copy (R152). -/
def State.phys (s : State) (t : TIx) : TIx := if s.rdt && s.ctx.trail then Fin.ofNat 8 (t.val + 4) else t

/-- Is the issuing cluster without a matrix unit (R382)? -/
def State.nomx (s : State) : Bool := (s.clusterAt (clusterOfCore s.core)).nomx

/-- Checks 1 to 4 of R136 on the tiles that an instruction names; `cfg` says that check 4 is made. -/
def tileFault (s : State) (ts : List TIx) (cfg : Bool) : Option Trap :=
  let shapes := ts.map fun t => s.cur.shapes[s.phys t]
  if s.nomx then some (Trap.plain Cause.matrixAbsent)
  else if s.rdt && ts.any (fun t => decide (3 < t.val)) then some (Trap.plain Cause.illegal)
  else if shapes.any (fun h => h.inuse && h.owner != BitVec.ofNat 4 s.slot.val) then some (Trap.plain Cause.protection)
  else if cfg && shapes.any (fun h => !h.cfg) then some (Trap.plain Cause.tileUnconfig)
  else none

/-- The place in the load-value queue of the operands of a task's next matrix product; they have numbers of their own, since
a pair can take a load's value and them together (R152, R380). -/
def mmaTurn (c : Ctx) : Nat := 2 ^ 32 + c.rdtMmas
/-- One more matrix product, or load, taken (R380). -/
def Ctx.nextMma (c : Ctx) : Ctx := { c with rdtMmas := c.rdtMmas + 1 }
def Ctx.nextLoad (c : Ctx) : Ctx := { c with rdtLoads := c.rdtLoads + 1 }

/-- Check 5 of R136 on the tiles that an instruction names: the pair parks. -/
def tileLocked (s : State) (lock : Bool) (ts : List TIx) : Bool := lock && ts.any fun t => s.cur.locked (s.phys t)

/-- A tile instruction: a full queue parks its pair before any fault (R50, R137), then come checks 1 to 5, then its own
checks (R136; log 49). `lock` says that check 5 is made, and `own` holds the instruction's own checks. -/
def tilePlan (s : State) (ts : List TIx) (cfg lock : Bool) (own : Option Trap) (k : Plan) : Plan :=
  if 4 ≤ s.cur.mxq.length then .park .matrix
  else match tileFault s ts cfg with
    | some t => .trap t
    | none =>
      if tileLocked s lock ts then .park .tileLock
      else match own with
        | some t => .trap t
        | none => k

/-- A request of the task `c`, as it was before the pair, joins the queue of its core (R137): RND is captured (R18, R19), and
MFMT, by the trailing copy of an RDT task as its leading copy has captured it, before the operands. It is outstanding until its
result is written (R43). -/
def State.enqueue (s : State) (c : Ctx) (op : MxOp) (shape : Shape) (acc : Nat → AccOp) (data : Option (List Word)) : State :=
  let id := s.seq
  let lead := s.rdt && !s.ctx.trail
  let lv := match op with
    | .mma .. | .mmai .. => if lead then some (mmaTurn s.ctx) else none
    | .tld .. => if lead then some s.ctx.rdtLoads else none
    | _ => none
  let a : Access :=
    { id := id, pc := c.pc, pair := s.pair, op := acc id, park := false, resends := 0, lv := lv, rid := id, done := 0, bad := none }
  let mm := match op with | .mma .. | .mmai .. => data | _ => none
  let r : MxReq :=
    { id := id, slot := s.slot, tid := c.tid, pc := c.pc, pair := s.pair, op := op, rnd := c.rnd, shape := shape, started := false
      mfmt := (mm.map fun ws => (ws.headD 0).truncate 15).getD s.cur.mfmt, data := if mm.isSome then mm.map (·.drop 1) else data
      seen := [], got := [] }
  ((s.modCtx fun x => { (match op with
      | .mma .. | .mmai .. => if lead then x.nextMma else x
      | .tld .. => if lead then x.nextLoad else x
      | _ => x) with accs := x.accs ++ [a] }).modCur fun x => { x with mxq := x.mxq ++ [r] }).bump

/-- A tile's shape changed at issue (R136), with its zero mark (R149). -/
def State.setShape (s : State) (t : TIx) (h : Shape) (z : Bool) : State :=
  s.modCur fun c => { c with shapes := c.shapes.set t h, zero := c.zero.set t z }

/-! ### TCFG to MFMT (R139 to R142) -/

/-- Width of an element type in bits (R139). -/
def typeWidth (t : BitVec 2) : Nat := if t.toNat < 2 then 32 else 16

/-- Is the tile reserved for an RDT task of another slot (R152)? -/
def State.reservedTile (s : State) (t : TIx) : Bool := decide (4 ≤ t.val) && !s.rdt && s.rdtOn s.cur

/-- Is a tile being written to an image (R147): CFG is 1 and INUSE 0? -/
def Shape.saving (h : Shape) : Bool := h.cfg && !h.inuse

/-- R139: a tile that is being saved holds the pair back in state 9 (R147). -/
def planTcfg (td : TIx) (a : GIx) (s : State) : Plan :=
  let v := (s.gv a).toNat
  let t := s.phys td
  let old := s.cur.shapes[t]
  gated s [a] [] [] [] (
    if 4 ≤ s.cur.mxq.length then .park .matrix
    else if !s.nomx && old.saving then .park .tileLock
    else if !s.nomx && s.reservedTile td then .trap (Trap.plain Cause.protection)
    else tilePlan s [td] false true (if v / 2 ^ 10 ≠ 0 then some (Trap.plain Cause.format) else none) (.act fun u =>
      let new : Shape := { rows := BitVec.ofNat 4 v, cols := BitVec.ofNat 4 (v / 16), typ := BitVec.ofNat 2 (v / 256), cfg := true
                           inuse := true, dirty := old.dirty, owner := BitVec.ofNat 4 s.slot.val }
      let same := old.cfg && typeWidth old.typ == typeWidth new.typ
      let new' := if same then new else { new with dirty := false }
      (u.setShape t new' (if same then u.cur.zero[t] else true)).enqueue s.ctx
        (.tcfg t (if same then some (old, new) else none)) new' .matrix none))

/-- R140. -/
def planTzero (td : TIx) (s : State) : Plan :=
  let t := s.phys td
  tilePlan s [td] true true none (.act fun u =>
    (u.setShape t { (u.cur.shapes[t]) with dirty := false } true).enqueue s.ctx (.tzero t) u.cur.shapes[t] .matrix none)

/-- R140: TREL of a tile that is not configured does nothing, and is no request, so that a full queue does not hold it back,
though R137 counts every tile instruction but TSTAT as one (DESIGN CHOICE, log 49). -/
def planTrel (td : TIx) (s : State) : Plan :=
  let t := s.phys td
  if !(s.cur.shapes[t]).cfg then (match tileFault s [td] false with
    | some f => .trap f
    | none => Plan.nop)
  else tilePlan s [td] false true none (.act fun u =>
      (u.setShape t Shape.init true).enqueue s.ctx (.trel t) u.cur.shapes[t] .matrix none)

/-- R142. The core's MFMT is written once for the two copies of an RDT task (R381). -/
def planMfmt (a : GIx) (s : State) : Plan :=
  let v := (s.gv a).toNat
  let pa := v % 16
  let pb := v / 16 % 16
  let k := v / 2 ^ 8 % 2 ^ 7
  effect s [a] [] true (gated s [a] [] [] [] (
    if s.nomx then .trap (Trap.plain Cause.matrixAbsent)
    else if pa < 1 ∨ 8 < pa ∨ pb < 1 ∨ 8 < pb ∨ k < 1 ∨ 64 < k ∨ v / 2 ^ 15 ≠ 0 then .trap (Trap.plain Cause.format)
    else .act fun u => u.modCur fun c => { c with mfmt := BitVec.ofNat 15 v }))

/-- The trailing copy of a task whose leading copy has no data for it: the tile's flags follow the leading copy's (R152,
R380). -/
def State.tileFollow (u : State) (s : State) (td : TIx) : State :=
  u.setShape (s.phys td) { s.cur.shapes[s.phys td] with dirty := s.cur.shapes[td].dirty } s.cur.zero[td]

/-! ### MMA and MMAI (R143, R144) -/

/-- PA, PB and KBLK of a format context (R26). -/
def fmtPa (m : BitVec 15) : Nat := m.toNat % 16
def fmtPb (m : BitVec 15) : Nat := m.toNat / 16 % 16
def fmtK (m : BitVec 15) : Nat := m.toNat / 2 ^ 8

/-- Bytes that the two operands hold (R143). -/
def bytesA (m : BitVec 15) (h : Shape) : Nat := (h.rows.toNat + 1) * fmtK m * (4 * (fmtPa m + 1))
def bytesB (m : BitVec 15) (h : Shape) : Nat := (h.cols.toNat + 1) * fmtK m * (4 * (fmtPb m + 1))

/-- The checks of R143, in its order, then the owner of the scratchpad (R306). -/
def mmaFault (s : State) (h : Shape) (int : Bool) (a b : Word) : Option Trap :=
  let m := s.cur.mfmt
  let first := fun (c : BitVec 8) (bad : Word → Nat → Bool) =>
    if bad a (bytesA m h) then some (Trap.at_ c a) else if bad b (bytesB m h) then some (Trap.at_ c b) else none
  if fmtPa m = 0 then some (Trap.plain Cause.format)
  else if h.typ ≠ (if int then 1 else 0) then some (Trap.plain Cause.format)
  else (first Cause.addrTag fun p _ => p.toNat / 2 ^ 21 != 0).or
    ((first Cause.misalign fun p _ => p.toNat % 4 != 0).or
      ((first Cause.protection fun p n => decide (2 ^ 21 < p.toNat + n)).or
        (if s.padAllowed (clusterOfCore s.core) s.ctx.rcb then none else some (Trap.at_ Cause.protection a))))

/-- R143, R144: LOCK, DIRTY and the zero mark change at issue. The trailing copy of an RDT task takes the operands that
the leading copy's request read (R152). -/
def mmaPlan (s : State) (int : Bool) (td : TIx) (a b : GIx) : Plan :=
  let t := s.phys td
  let go := fun (data : Option (List Word)) (u : State) =>
    let h := u.cur.shapes[t]
    (u.setShape t { h with dirty := true } false).enqueue s.ctx
      (if int then .mmai t (s.gv a).toNat (s.gv b).toNat else .mma t (s.gv a).toNat (s.gv b).toNat) h .matrix data
  let trail := s.rdt && s.ctx.trail
  gated s [a, b] [] [] [] (if s.rdt && !s.ctx.trail && s.lvFull then .park .mem
    else tilePlan s [td] true false (if trail then none else mmaFault s s.cur.shapes[t] int (s.gv a) (s.gv b))
    (if trail then s.follow (mmaTurn s.ctx) Ctx.nextMma fun ws u =>
      if ws.isEmpty then u.tileFollow s td else go (some ws) u
     else .act (go none)))

/-- R143, R144. -/
def planMma (td : TIx) (a b : GIx) (s : State) : Plan := mmaPlan s false td a b
/-- R143, R144. -/
def planMmai (td : TIx) (a b : GIx) (s : State) : Plan := mmaPlan s true td a b

/-! ### Slice moves, flags and transposes (R146 to R148) -/

/-- The index of a slice move, or FORMAT (R146). -/
def sliceFault (v : Word) (last : BitVec 4) : Option Trap :=
  if last.toNat < v.toNat then some (Trap.plain Cause.format) else none

/-- A slice move out of a tile: the v register is Pending until the result is written (R137). -/
def sliceRead (s : State) (v : VIx) (td : TIx) (b : GIx) (row : Bool) : Plan :=
  let t := s.phys td
  let h := s.cur.shapes[t]
  gated s [b] [] [] [v] (tilePlan s [td] true true (sliceFault (s.gv b) (if row then h.rows else h.cols)) (.act fun u =>
    (u.enqueue s.ctx (if row then .trowr v t (Fin.ofNat 16 (s.gv b).toNat) else .tcolr v t (Fin.ofNat 16 (s.gv b).toNat)) h
      .matrix none).modCtx (·.pendV v u.seq)))

/-- A slice move into a tile: the v register is read at issue, DIRTY is set and the zero mark cleared (R146). -/
def sliceWrite (s : State) (td : TIx) (v : VIx) (b : GIx) (row : Bool) : Plan :=
  let t := s.phys td
  let h := s.cur.shapes[t]
  gated s [b] [v] [] [] (tilePlan s [td] true true (sliceFault (s.gv b) (if row then h.rows else h.cols)) (.act fun u =>
    (u.setShape t { h with dirty := true } false).enqueue s.ctx
      (if row then .troww t (Fin.ofNat 16 (s.gv b).toNat) (s.vv v) else .tcolw t (Fin.ofNat 16 (s.gv b).toNat) (s.vv v)) h .matrix none))

/-- R146. -/
def planTrowr (v : VIx) (td : TIx) (b : GIx) (s : State) : Plan := sliceRead s v td b true
/-- R146. -/
def planTroww (td : TIx) (v : VIx) (b : GIx) (s : State) : Plan := sliceWrite s td v b true
/-- R146. -/
def planTcolr (v : VIx) (td : TIx) (b : GIx) (s : State) : Plan := sliceRead s v td b false
/-- R146. -/
def planTcolw (td : TIx) (v : VIx) (b : GIx) (s : State) : Plan := sliceWrite s td v b false

/-- R147, R136: no check of ownership, configuration or lock. -/
def planTstat (a : GIx) (td : TIx) (s : State) : Plan :=
  gated s [] [] [a] [] (
    if s.nomx then .trap (Trap.plain Cause.matrixAbsent)
    else if s.rdt && decide (3 < td.val) then .trap (Trap.plain Cause.illegal)
    else .act fun u => u.writeG a (s.cur.shapeWord (s.phys td)))

/-- R148. -/
def planTtrans (td ta : TIx) (s : State) : Plan :=
  let d := s.phys td
  let a := s.phys ta
  tilePlan s [td, ta] true true none (.act fun u =>
    let src := u.cur.shapes[a]
    let h : Shape := { (u.cur.shapes[d]) with rows := src.cols, cols := src.rows, typ := src.typ, dirty := true }
    (u.setShape d h u.cur.zero[a]).enqueue s.ctx (.ttrans d a) src .matrix none)

/-! ### TLD and TST (R172 to R174) -/

/-- Bytes of an element in memory (R172). -/
def Shape.esz (h : Shape) : Nat := if h.typ.toNat < 2 then 4 else 2

/-- A tensor as a bounded form sees it (R173). -/
structure Tensor where
  base : Word
  rows : Nat
  cols : Nat
  stride : Word
  fill : BitVec 32
  deriving DecidableEq, Repr

/-- The descriptor at a key; none where a field faults FORMAT (R173). -/
def State.tensorAt (s : State) (key esz : Nat) : Option Tensor :=
  let w1 := s.load (key + 8) 8
  let w2 := s.load (key + 16) 8
  let w3 := s.load (key + 24) 8
  if w3 / 2 ^ 32 ≠ 0 ∨ w2 % esz ≠ 0 then none
  else some { base := BitVec.ofNat 64 (s.load key 8), rows := w1 % 2 ^ 32, cols := w1 / 2 ^ 32, stride := BitVec.ofNat 64 w2
              fill := BitVec.ofNat 32 w3 }

/-- The address of tensor element (r, c), if it lies inside (R173). -/
def Tensor.at_ (x : Tensor) (esz : Nat) (r c : Int) : Option Word :=
  if 0 ≤ r ∧ r < x.rows ∧ 0 ≤ c ∧ c < x.cols then
    some (x.base + BitVec.ofInt 64 r * x.stride + BitVec.ofInt 64 (c * esz))
  else none

/-- The homes of a tile access; the first failure decides (R155, R173). Tag 0x8 faults ADDR_TAG (R160), a frozen weight
store WEIGHT_WRITE (R162). -/
def tileHomes (s : State) (esz : Nat) (ld : Bool) : List (Option Word) → Except Trap (List (Option Home))
  | [] => .ok []
  | none :: ps => (tileHomes s esz ld ps).map fun l => none :: l
  | some p :: ps =>
    if p.toNat / 2 ^ 60 = 8 then .error (Trap.at_ Cause.addrTag p)
    else match s.element s.who p esz esz (if ld then .read else .write) with
      | .error t => .error t
      | .ok h =>
        if !ld && s.frozen s.core h then .error (Trap.at_ Cause.weightWrite p)
        else (tileHomes s esz ld ps).map fun l => some h :: l

/-- A load of a tile joins the queue after the A slot has acted, which reads the tile as it was before the pair (R47, R48;
log 58). -/
def Plan.late : Plan → Plan
  | .commit r now after => .commit r id fun b t => after b (now t)
  | p => p

/-- A tile access with its addresses found (R172 to R174); the trailing copy of an RDT task accesses nothing (R380, R381). -/
def tileAccess (s : State) (ld : Bool) (td : TIx) (fill : BitVec 32) (addrs : List Word)
    (r : Except Trap (List (Option Home))) : Plan :=
  let t := s.phys td
  let h := s.cur.shapes[t]
  let esz := h.esz
  match (if s.rdt && s.ctx.trail then .ok [] else r) with
  | .error f => .trap f
  | .ok els =>
    if ld then
      let go := fun (data : Option (List Word)) (u : State) =>
        (u.setShape t { h with dirty := true } false).enqueue s.ctx (.tld t esz els addrs fill) h (.tile · true) data
      if s.rdt && s.ctx.trail then (outside s [] fun ws u => if ws.isEmpty then u.tileFollow s td else go (some ws) u).late
      else (Plan.act (go none)).late
    else if s.rdt && s.ctx.trail then Plan.nop
    else .act fun u => u.enqueue s.ctx (.tst t esz els addrs) h (.tile · false) none

/-- Is a tile access held back by earlier accesses (R153, R167)? -/
def State.tileHeld (s : State) (ld bd : Bool) : Bool := s.heldAll || (!ld && s.heldRel) || (bd && s.plainBlocked)

/-- The plain form (R172): the stride before any address. -/
def tileStrided (s : State) (ld : Bool) (td : TIx) (a b : GIx) : Plan :=
  let h := s.cur.shapes[s.phys td]
  let ps := h.positions.map fun p => s.gv a + BitVec.ofNat 64 p.1 * s.gv b + BitVec.ofNat 64 (p.2 * h.esz)
  gated s [a, b] [] [] [] (
    if s.tileHeld ld false || (s.rdt && ld && !s.ctx.trail && s.lvFull) then .park .mem
    else tilePlan s [td] true true none (
      if (s.gv b).toNat % h.esz ≠ 0 then .trap (Trap.plain Cause.format)
      else tileAccess s ld td 0 ps (tileHomes s h.esz ld (ps.map some))))

/-- A pair that needs room in the queue of the matrix unit (R137): where the queue is full, it does not fault (R50). -/
def State.room (s : State) (p : Plan) : Plan :=
  if s.cur.mxq.length < 4 then p
  else match p with
    | .trap _ | .commit _ _ _ => .park .matrix
    | p => p

/-- The bounded form (R173): the tile checks, then the descriptor, which is read as a plain access; the request waits for
room in the queue once the descriptor has returned (log 49). -/
def tileBounded (s : State) (ld : Bool) (td : TIx) (a b : GIx) : Plan :=
  let h := s.cur.shapes[s.phys td]
  let row0 : Int := ((s.gv b).truncate 32 : BitVec 32).toInt
  let col0 : Int := (((s.gv b) >>> 32).truncate 32 : BitVec 32).toInt
  gated s [a, b] [] [] [] (
    if s.tileHeld ld true || (s.rdt && ld && !s.ctx.trail && s.lvFull) then .park .mem
    else s.room (match tileFault s [td] true with
    | some t => .trap t
    | none =>
      if tileLocked s true [td] then .park .tileLock
      else if s.rdt && s.ctx.trail then tileAccess s ld td 0 [] (.ok [])
      else if (s.gv a).toNat / 2 ^ 60 = 8 then .trap (Trap.at_ Cause.addrTag (s.gv a))
      else match s.element s.who (s.gv a) 32 32 .read with
        | .error t => .trap t
        | .ok (.fab _ _) => .trap (Trap.at_ Cause.addrTag (s.gv a))
        | .ok (.mem k) =>
          lateRead s (some (.mem k, 32)) (s.gv a) ld (match s.tensorAt k h.esz with
            | none => .trap (Trap.plain Cause.format)
            | some x =>
              let ps := h.positions.map fun p => x.at_ h.esz (row0 + p.1) (col0 + p.2)
              tileAccess s ld td x.fill (ps.map (·.getD 0)) (tileHomes s h.esz ld ps))))

/-- R172, R174. -/
def planTld (td : TIx) (a b : GIx) (s : State) : Plan := tileStrided s true td a b
/-- R173, R174. -/
def planTldBd (td : TIx) (a b : GIx) (s : State) : Plan := tileBounded s true td a b
/-- R172, R174. -/
def planTst (td : TIx) (a b : GIx) (s : State) : Plan := tileStrided s false td a b
/-- R173, R174. -/
def planTstBd (td : TIx) (a b : GIx) (s : State) : Plan := tileBounded s false td a b

/-! ### The unit's work (R137, R144, R152) -/

/-- The cores of a cluster after core `k`, in the order of the round robin (R137). -/
def coresFrom (cluster k : Nat) : List Nat := (List.range 8).map fun j => cluster * 8 + (k + 1 + j) % 8

/-- The clk that a request occupies the unit (R137). -/
def MxReq.occupancy (r : MxReq) : Nat := match r.op with
  | .mma _ _ _ | .mmai _ _ _ => fmtPa r.mfmt * fmtPb r.mfmt
  | .ttrans _ _ => 16
  | _ => 1

/-- The tiles that a request names. -/
def MxOp.tiles : MxOp → List TIx
  | .tcfg t _ | .tzero t | .trel t | .trowr _ t _ | .troww t _ _ | .tcolr _ t _ | .tcolw t _ _ | .mma t _ _ | .mmai t _ _
  | .tld t _ _ _ _ | .tst t _ _ _ => [t]
  | .ttrans d a => [d, a]

/-- Is it a load, or a store, of a tile? -/
def MxOp.isTld : MxOp → Bool
  | .tld .. => true
  | _ => false
def MxOp.isTst : MxOp → Bool
  | .tst .. => true
  | _ => false

/-- Do two requests name a common tile? -/
def MxReq.meets (q r : MxReq) : Bool := q.op.tiles.any fun t => r.op.tiles.contains t

/-- The writes of a started TST: homes, addresses and values. -/
def MxReq.writesOf (r : MxReq) : Option (Nat × List ((Home × Word) × Word)) := match r.op with
  | .tst _ esz els addrs => some (esz, ((els.zip addrs).filterMap fun e => e.1.map fun h => (h, e.2)).zip r.got)
  | _ => none

/-- Does an operation name memory (R285)? -/
def MxOp.names : MxOp → Bool
  | .mma .. | .mmai .. | .tld .. | .tst .. => true
  | _ => false

/-- Is a request no TST, or have all its writes been performed (R285)? -/
def MxReq.written (q : MxReq) : Bool := match q.writesOf with
  | some (_, l) => q.started && decide (l.length ≤ q.seen.length)
  | none => true

/-- May request `r` start while the earlier requests `q` of its core are unfinished (R137, R174)? They have started; none is
a TLD that locks a tile that `r` names; a TST, which reads its tile as it starts, waits for what they write there; and one that
names memory waits for every write of an earlier TST (R285). -/
def MxReq.mayStart (earlier : List MxReq) (r : MxReq) : Bool :=
  !r.started && earlier.all fun q =>
    q.started && !(q.meets r && (q.op.isTld || (r.op.isTst && !q.op.isTst))) && (!r.op.names || q.written)

/-- The place of the request of a core that starts next (R137). -/
def nextStart (l : List MxReq) : Option Nat := (List.range l.length).find? fun k => match l[k]? with
  | some r => r.mayStart (l.take k)
  | none => false

/-- The elements of a tile that a TST stores. -/
def TileData.stored (x : TileData) (h : Shape) (els : List (Option Home)) : List (Home × Nat) :=
  (h.positions.zip els).filterMap fun p => p.2.map fun m => (m, ((x[Fin.ofNat 16 p.1.1])[Fin.ofNat 16 p.1.2]).toNat)

/-- A request starts: a TST reads its tile (R174). -/
def MxReq.start (r : MxReq) (tiles : Vector TileData 8) : MxReq :=
  { r with
    started := true
    got := match r.op with
      | .tst t _ els _ => ((tiles[t] : TileData).stored r.shape els).map fun e => BitVec.ofNat 64 e.2
      | _ => r.got }

/-- The clk by which a request of a core takes the unit longer because its die draws more than its grant (R397): a free value, once
the power arbiter has granted a budget (log 77). -/
def State.throttle (s : State) (core : Nat) : Nat :=
  if (s.dieAt (dieOfCore core)).power = 0 then 0 else Config.throttle s.free

/-- MATRIX_REQUEST_START: the unit takes the next request of its cores' queues, round robin (R137). -/
def execMatrixRequestStart (cluster : Nat) (s : State) : Host.Outcome State Fault Refusal :=
  .next (match (coresFrom cluster (s.clusterAt cluster).mxLast).find? fun n => (nextStart (s.coreAt n).mxq).isSome with
    | none => s
    | some n => match nextStart (s.coreAt n).mxq with
      | none => s
      | some k => ({ s with free := s.free + 1 }.modCore n fun c => { c with mxq := c.mxq.modify k fun r => r.start c.tiles }).modCluster cluster
          fun c => { c with mxLast := n % 8, pcnt4 := c.pcnt4 + (((s.coreAt n).mxq[k]?.map MxReq.occupancy).getD 0) + s.throttle n })

/-- The block that starts at word `o` of a list (R90), for P planes. -/
def blockAt (ws : List Word) (p o : Nat) : Block :=
  let l := (ws.drop o).map (·.toNat)
  { x := l.headD 0 % 256, ms := blockInts p ((l.drop 1).take p) }

/-- Does a block header agree with the format context (R144)? -/
def headerOk (p : Nat) (w : Word) : Bool := w.toNat / 2 ^ 11 == 0 && w.toNat / 2 ^ 8 % 8 == p - 1

/-- The headers of an operand are those that the format context asks for (R144). -/
def headersOk (p : Nat) : List Word → Nat → Bool
  | _, 0 => true
  | ws, n + 1 => headerOk p (ws.headD 0) && headersOk p (ws.drop (p + 1)) n

/-- A position of a tile set. -/
def TileData.put (x : TileData) (i j : Nat) (v : BitVec 32) : TileData :=
  x.set (Fin.ofNat 16 i) ((x[Fin.ofNat 16 i]).set (Fin.ofNat 16 j) v)

/-- The effect of MMA or MMAI on a tile, from the words of its operands (R144): none where a header fails. -/
def runMma (r : MxReq) (int : Bool) (ws : List Word) (x : TileData) : Option (TileData × Flags) :=
  let m := r.mfmt
  let pa := fmtPa m
  let pb := fmtPb m
  let k := fmtK m
  let rnd := Rnd.ofBits r.rnd
  let wa := ws.take (bytesA m r.shape / 4)
  let wb := ws.drop (bytesA m r.shape / 4)
  if !headersOk pa wa ((r.shape.rows.toNat + 1) * k) || !headersOk pb wb ((r.shape.cols.toNat + 1) * k) then none
  else some (r.shape.positions.foldl (fun acc p =>
    let blocks := (List.range k).map fun b => (blockAt wa pa ((p.1 * k + b) * (pa + 1)), blockAt wb pb ((p.2 * k + b) * (pb + 1)))
    let old := (x[Fin.ofNat 16 p.1])[Fin.ofNat 16 p.2]
    let v : BitVec 32 × Flags := if int then chunkInt32 rnd old blocks
      else let f := chunkFP32 pa pb rnd old.toNat blocks; (BitVec.ofNat 32 f.1, f.2)
    (acc.1.put p.1 p.2 v.1, acc.2 ||| v.2)) (x, 0))

/-- One step of CRC-32C. -/
def crcBit (c : BitVec 32) : BitVec 32 := if c.getLsbD 0 then (c >>> 1) ^^^ 0x82F63B78 else c >>> 1
/-- CRC-32C of a tile, in row-major order (R152). -/
def tileCrc (x : TileData) : BitVec 32 :=
  ~~~((x.toList.flatMap fun row => row.toList.flatMap fun w => bytesLE 4 w.toNat).foldl (fun c b =>
    (List.range 8).foldl (fun c _ => crcBit c) (c ^^^ b.zeroExtend 32)) (BitVec.allOnes 32))

/-- An element as a position of its type holds it (R139). -/
def Shape.clip (h : Shape) (v : BitVec 32) : BitVec 32 := if typeWidth h.typ = 16 then v &&& 0xFFFF else v

/-- The contents of a tile after an operation that met uncorrectable data: free values within the shape (R144, R174;
log 10). -/
def freeTileOf (n : Nat) (h : Shape) (x : TileData) : TileData :=
  h.positions.foldl (fun x p => x.put p.1 p.2 (h.clip (Config.freeTile n (16 * p.1 + p.2)))) x

/-- A tile of a core set. -/
def State.setTile (s : State) (n : Nat) (t : TIx) (x : TileData) : State := s.modCore n fun c => { c with tiles := c.tiles.set t x }

/-- The tile that a request writes, if it writes elements (R152). -/
def MxOp.writes : MxOp → Option TIx
  | .tcfg t _ | .tzero t | .trel t | .troww t _ _ | .tcolw t _ _ | .ttrans t _ | .mma t _ _ | .mmai t _ _ | .tld t _ _ _ _ => some t
  | _ => none

/-- A request fails late: the tile is free within its shape, where its contents are lost (R144, R174). -/
def State.failReq (s : State) (n : Nat) (r : MxReq) (lost : Option TIx) (cause : BitVec 8) (addr : Word) : State :=
  let s1 := match lost with
    | some t => { s.setTile n t (freeTileOf s.free r.shape (s.coreAt n).tiles[t]) with free := s.free + 1 }
    | none => s
  match (s1.ctxAt n r.slot).accs.find? fun a => a.id == r.id with
  | some a => s1.failAcc n r.slot a cause addr
  | none => s1

/-- The comparison of the two copies' tiles (R152): the CRC of the first copy is kept until the second has written that tile;
the writes of one tile follow each other in the order of issue in each copy. A
difference is REDUNDANCY_MISMATCH against the leading copy's pair, and contains the core. -/
def State.compareTiles (s : State) (n : Nat) (r : MxReq) : State := match r.op.writes with
  | none => s
  | some t =>
    let c := s.ctxAt n r.slot
    if !s.isRdt c.rcb || c.tid != r.tid then s
    else
      let lead := leadSlot r.slot
      let crc := tileCrc (s.coreAt n).tiles[t]
      let tile : TIx := Fin.ofNat 8 (t.val % 4)
      match (s.coreAt n).crcs.findIdx? fun e => e.1 == lead && e.2.1 != c.trail && e.2.2.1 == tile with
      | none => s.modCore n fun x => { x with crcs := x.crcs ++ [(lead, c.trail, tile, crc, r.pc, r.pair)] }
      | some k => match (s.coreAt n).crcs[k]? with
        | none => s
        | some e =>
          let s1 := s.modCore n fun x => { x with crcs := x.crcs.eraseIdx k }
          if e.2.2.2.1 = crc then s1
          else (s1.modCtxAt n lead fun x => x.addLate Cause.redundancyMismatch (if c.trail then e.2.2.2.2.1 else r.pc)
            (if c.trail then e.2.2.2.2.2 else r.pair) 0).dueContainment n

/-- A request ends: its tile is compared with the other copy's, its flags go to the slot that issued it, its access ends, and
a leading copy's data is kept for the trailing copy (R21, R144, R152). -/
def State.endReq (s0 : State) (n : Nat) (r : MxReq) (f : Flags) (kept : List Word) : State :=
  let s := s0.compareTiles n r
  if (s.ctxAt n r.slot).tid ≠ r.tid then s
  else match (s.ctxAt n r.slot).accs.find? fun a => a.id == r.id with
    | some a => ((s.modCtxAt n r.slot fun c => c.raise f).queueValue n (leadSlot r.slot) a kept).finishAcc n r.slot a
    | none => s

/-- The 256 positions as a list. -/
def TileData.flat (x : TileData) : List Word := x.toList.flatMap fun row => row.toList.map (·.zeroExtend 64)

/-- The piece of `n` that comes next: piece `j`, or, where that has been done, the first that has not; `n` once all have
(R145). -/
def MxReq.turn (r : MxReq) (n j : Nat) : Nat :=
  if j < n ∧ !r.seen.contains j then j else ((List.range n).find? fun k => !r.seen.contains k).getD n
/-- The words that a request has read, in the order of their places. -/
def MxReq.words (r : MxReq) : List Word := (List.range r.got.length).map fun k => r.got.getD (r.seen.idxOf k) 0

/-- Words of 32 bits from bytes, the least significant first. -/
def joinBytes : List Word → List Word
  | a :: b :: c :: d :: l => (a ||| b <<< 8 ||| c <<< 16 ||| d <<< 24) :: joinBytes l
  | _ => []
/-- The words of the operands that an MMA has read; a trailing copy's has them from the leading copy (R152). -/
def MxReq.operands (r : MxReq) : List Word := r.data.getD (joinBytes r.words)

/-- The result of MMA or MMAI, from the words that the request has read (R144, R145). -/
def State.endMma (s : State) (n : Nat) (r : MxReq) (int : Bool) (t : TIx) : State :=
  let ws := r.operands
  match runMma r int ws (s.coreAt n).tiles[t] with
  | none => s.failReq n r none Cause.format 0
  | some x => (s.setTile n t x.1).endReq n r x.2 (r.mfmt.zeroExtend 64 :: ws)

/-- The values that a TLD writes to the positions of its tile: those read, in order, and FILL outside the tensor (R172,
R173). -/
def tldValues (fill : BitVec 32) : List (Option Home) → List Word → List (BitVec 32)
  | [], _ => []
  | none :: els, ws => fill :: tldValues fill els ws
  | some _ :: els, ws => (ws.headD 0).truncate 32 :: tldValues fill els (ws.drop 1)

/-- The result of a TLD (R172 to R174). -/
def State.endTld (s : State) (n : Nat) (r : MxReq) (t : TIx) (els : List (Option Home)) (fill : BitVec 32) : State :=
  let vals := match r.data with
    | some ws => ws.map (·.truncate 32)
    | none => tldValues (r.shape.clip fill) els r.words
  let x := (r.shape.positions.zip vals).foldl (fun x p => x.put p.1.1 p.1.2 p.2) (s.coreAt n).tiles[t]
  (s.setTile n t x).endReq n r 0 (vals.map (·.zeroExtend 64))

/-- The end of a TST, whose writes its homes have accepted; the first that failed gives its late fault (R174). -/
def State.endTst (s : State) (n : Nat) (r : MxReq) : State :=
  match ((s.ctxAt n r.slot).accs.find? fun a => a.id == r.id).bind (·.bad) with
  | some f => s.failReq n r none f.1 f.2
  | none => s.endReq n r 0 []

/-- The kept positions of a TCFG (R139). -/
def keepTile (old new : Shape) (x : TileData) : TileData := Vector.ofFn fun i => Vector.ofFn fun j =>
  if i.val ≤ old.rows.toNat ∧ i.val ≤ new.rows.toNat ∧ j.val ≤ old.cols.toNat ∧ j.val ≤ new.cols.toNat then (x[i])[j] else 0

/-- The vector that a slice read leaves: 16 lanes of 32 bits (R146). -/
def sliceVec (last : BitVec 4) (f : Fin 16 → BitVec 32) : VWord :=
  BitVec.ofNat 512 ((List.range 16).foldr (fun k a => (if k ≤ last.toNat then (f (Fin.ofNat 16 k)).toNat else 0) + 2 ^ 32 * a) 0)

/-- Lane `k` of 32 bits. -/
def vlane32 (v : VWord) (k : Nat) : BitVec 32 := BitVec.ofNat 32 (v.toNat / 2 ^ (32 * k))

/-- A TROWR or TCOLR returns its vector. -/
def State.endSlice (s : State) (n : Nat) (r : MxReq) (v : VIx) (x : VWord) : State :=
  (s.modCtxAt n r.slot fun c => if c.tid = r.tid then c.fillV v r.id x else c).endReq n r 0 []

/-- The result of a request (R137 to R148, R172 to R174). -/
def State.endOp (s : State) (n : Nat) (r : MxReq) : State :=
  let tile := fun (t : TIx) => (s.coreAt n).tiles[t]
  match r.op with
  | .tcfg t keep => (s.setTile n t (match keep with
      | some (o, w) => keepTile o w (tile t)
      | none => TileData.zero)).endReq n r 0 []
  | .tzero t => (s.setTile n t TileData.zero).endReq n r 0 []
  | .trel t => (s.setTile n t TileData.zero).endReq n r 0 []
  | .trowr v t x => s.endSlice n r v (sliceVec r.shape.cols fun k => ((tile t)[x])[k])
  | .tcolr v t x => s.endSlice n r v (sliceVec r.shape.rows fun k => ((tile t)[k])[x])
  | .troww t x v => (s.setTile n t ((List.range (r.shape.cols.toNat + 1)).foldl (fun d k =>
      d.put x.val k (r.shape.clip (vlane32 v k))) (tile t))).endReq n r 0 []
  | .tcolw t x v => (s.setTile n t ((List.range (r.shape.rows.toNat + 1)).foldl (fun d k =>
      d.put k x.val (r.shape.clip (vlane32 v k))) (tile t))).endReq n r 0 []
  | .ttrans d a => (s.setTile n d (Vector.ofFn fun i => Vector.ofFn fun j => ((tile a)[j])[i])).endReq n r 0 []
  | .mma t _ _ => s.endMma n r false t
  | .mmai t _ _ => s.endMma n r true t
  | .tld t _ els _ fill => s.endTld n r t els fill
  | .tst _ _ _ _ => s.endTst n r

/-- What a request reads from memory: keys, lengths, and the addresses that the program gave (R172); of an MMA's operands each
byte (R143, R145). A trailing copy's request reads none (R152). -/
def MxReq.reads (n : Nat) (r : MxReq) : List (Nat × Nat × Word) :=
  let bytes := fun (p m : Nat) => (List.range m).map fun k => (padBase (clusterOfCore n) + p + k, (1 : Nat), BitVec.ofNat 64 (p + k))
  if r.data.isSome then []
  else match r.op with
    | .mma _ a b | .mmai _ a b => bytes a (bytesA r.mfmt r.shape) ++ bytes b (bytesB r.mfmt r.shape)
    | .tld _ esz els addrs _ => (els.zip addrs).filterMap fun e => match e.1 with
      | some (.mem k) => some (k, esz, e.2)
      | _ => none
    | _ => []

/-- The tile whose contents are lost where a request's data is uncorrectable (R144, R174). -/
def MxOp.loses : MxOp → Option TIx
  | .mma t _ _ | .mmai t _ _ | .tld t _ _ _ _ => some t
  | _ => none

/-- Request `k` of a core leaves the queue. -/
def State.dropReq (s : State) (n k : Nat) : State := s.modCore n fun c => { c with mxq := c.mxq.eraseIdx k }

/-- Request `k` of a core reads its piece `j` of memory, at the key `p.1` (R145, R156). Data that is uncorrectable ends the
request with a late fault (R144, R174, R321, R373). -/
def State.readReq (s : State) (n k j : Nat) (r : MxReq) (p : Nat × Nat × Word) (err : Bool) : State :=
  match s.dataFault p.1 p.2.1 err with
  | some f =>
    let s1 := ((s.dropReq n k).failReq n r r.op.loses f.1 p.2.2).wakeMatrix n
    if f.2 then (s1.foundError p.1 p.2.1).dueContainment n else s1
  | none => s.modCore n fun c => { c with mxq := c.mxq.modify k fun q =>
      { q with seen := q.seen ++ [j], got := q.got ++ [BitVec.ofNat 64 (s.load p.1 p.2.1)] } }

/-- A TST's write `j` (R174); the first that fails is kept (R51). -/
def State.writeReq (s : State) (n k j : Nat) (r : MxReq) (esz : Nat) (h : Home) (p v : Word) : State :=
  let w := s.performStores n esz 0 [(h, v.toNat)] none
  (w.1.modCore n fun c => { c with mxq := c.mxq.modify k fun q => { q with seen := q.seen ++ [j] } }).modAcc n r.slot r.id fun a =>
    { a with bad := a.bad.or (w.2.map fun f => (f.1, p)) }

/-- Has a request of core `n` made all its accesses of memory? -/
def MxReq.memDone (n : Nat) (r : MxReq) : Bool := r.written && decide ((r.reads n).length ≤ r.seen.length)

/-- MATRIX_RESULT_WRITE for request `k` of a core (R137, R144): a piece of memory that it reads or writes, `j` or another, or
else its result, once it has started and no earlier request of a common tile is unfinished. An MMA may read from its issue on
(R145). The accesses of the requests of a core are in the order of issue (R285). -/
def State.advanceReq (s : State) (n k j : Nat) (r : MxReq) (err : Bool) : State :=
  let i := r.turn (r.reads n).length j
  let clear := ((s.coreAt n).mxq.take k).all (·.memDone n)
  match (r.reads n)[i]? with
  | some p => if clear && (r.started || !r.op.isTld) then s.readReq n k i r p err else s
  | none =>
    if !r.started || ((s.coreAt n).mxq.take k).any fun q => q.meets r && !q.op.isTst then s
    else match r.writesOf with
      | some (esz, l) => match l[r.turn l.length j]? with
        | some e => if clear then s.writeReq n k (r.turn l.length j) r esz e.1.1 e.1.2 e.2 else s
        | none => ((s.dropReq n k).endOp n r).wakeMatrix n
      | none => ((s.dropReq n k).endOp n r).wakeMatrix n

/-- MATRIX_RESULT_WRITE of core `core` mod 2,048, for request `core` / 2,048 mod 4 of its queue, at piece `core` / 8,192: its slot and those that waited for
the queue or the tile go on once its result is written (R137, R138, R144). `err` says that the piece of memory at hand is
uncorrectable. -/
def execMatrixResultWrite (core : Nat) (err : Bool) (s : State) : Host.Outcome State Fault Refusal :=
  let n := core % 2048
  let k := core / 2048 % 4
  .next (match (s.coreAt n).mxq[k]? with
    | none => s
    | some r => s.advanceReq n k (core / 8192) r err)

/-! ### The meanings: each instruction alone in its pair -/

/-- Tcfg (R138, R174, R25, R152, R382, R136, R137, R43, R149, R139, R142). -/
def execTcfg (td : TIx) (a : GIx) (s : State) : Host.Outcome State Fault Refusal :=
  .next (issueOne (planTcfg td a s) s)

/-- Tzero (R140). -/
def execTzero (td : TIx) (s : State) : Host.Outcome State Fault Refusal :=
  .next (issueOne (planTzero td s) s)

/-- Trel (R140). -/
def execTrel (td : TIx) (s : State) : Host.Outcome State Fault Refusal :=
  .next (issueOne (planTrel td s) s)

/-- Mfmt (R142). -/
def execMfmt (a : GIx) (s : State) : Host.Outcome State Fault Refusal :=
  .next (issueOne (planMfmt a s) s)

/-- Mma (R26, R143, R306, R144, R152). -/
def execMma (td : TIx) (a b : GIx) (s : State) : Host.Outcome State Fault Refusal :=
  .next (issueOne (planMma td a b s) s)

/-- Mmai (R143, R144). -/
def execMmai (td : TIx) (a b : GIx) (s : State) : Host.Outcome State Fault Refusal :=
  .next (issueOne (planMmai td a b s) s)

/-- Trowr (R146, R137). -/
def execTrowr (v : VIx) (td : TIx) (b : GIx) (s : State) : Host.Outcome State Fault Refusal :=
  .next (issueOne (planTrowr v td b s) s)

/-- Troww (R146). -/
def execTroww (td : TIx) (v : VIx) (b : GIx) (s : State) : Host.Outcome State Fault Refusal :=
  .next (issueOne (planTroww td v b s) s)

/-- Tcolr (R146). -/
def execTcolr (v : VIx) (td : TIx) (b : GIx) (s : State) : Host.Outcome State Fault Refusal :=
  .next (issueOne (planTcolr v td b s) s)

/-- Tcolw (R146). -/
def execTcolw (td : TIx) (v : VIx) (b : GIx) (s : State) : Host.Outcome State Fault Refusal :=
  .next (issueOne (planTcolw td v b s) s)

/-- Tstat (R147, R136). -/
def execTstat (a : GIx) (td : TIx) (s : State) : Host.Outcome State Fault Refusal :=
  .next (issueOne (planTstat a td s) s)

/-- Ttrans (R148). -/
def execTtrans (td ta : TIx) (s : State) : Host.Outcome State Fault Refusal :=
  .next (issueOne (planTtrans td ta s) s)

/-- Tld (R172, R173, R155, R160, R162, R174). -/
def execTld (td : TIx) (a b : GIx) (s : State) : Host.Outcome State Fault Refusal :=
  .next (issueOne (planTld td a b s) s)

/-- TldBd (R173, R174). -/
def execTldBd (td : TIx) (a b : GIx) (s : State) : Host.Outcome State Fault Refusal :=
  .next (issueOne (planTldBd td a b s) s)

/-- Tst (R172, R174). -/
def execTst (td : TIx) (a b : GIx) (s : State) : Host.Outcome State Fault Refusal :=
  .next (issueOne (planTst td a b s) s)

/-- TstBd (R173, R174). -/
def execTstBd (td : TIx) (a b : GIx) (s : State) : Host.Outcome State Fault Refusal :=
  .next (issueOne (planTstBd td a b s) s)

end Sys2Proof.Machine
end

