-- ==== Sys2Proof/Machine/Engine.lean ====
section
/-! DEFINITION. Engine commands, the mailbox and static schedules (08, R175, R176; 10, R209 to R216, R231, R232, R401; 18,
R309, R312, R313), and the engines' own events. -/

namespace Sys2Proof.Machine

/-! ### The command FIFO (R209) -/

/-- Commands that no unit has taken. -/
def Core.fifoLen (c : Core) : Nat := (c.engs.filter fun e => !e.started).length

/-- Signed bits of a word. -/
def sbits (w : Word) (hi lo : Nat) : Int := (BitVec.ofNat (hi + 1 - lo) (bitsOf w hi lo)).toInt

/-- Fields of W3 (R211). -/
def w3Tag (w : Word) : Nat := bitsOf w 63 48
def w3Dim (w : Word) : Nat := bitsOf w 47 46
def w3Esz (w : Word) : Nat := bitsOf w 45 44
def w3Dkind (w : Word) : Nat := bitsOf w 43 42
def w3Dist (w : Word) : Bool := w.getLsbD 41
def w3Mbx (w : Word) : Bool := w.getLsbD 40
/-- The engine context of a command (R211). -/
def w3Ecx (w : Word) (sel : BitVec 2) : Fin 4 := if w.getLsbD 39 then Fin.ofNat 4 (bitsOf w 38 37) else Fin.ofNat 4 sel.toNat

/-- Fields of DPAT (R27). -/
def dpFirst (d : BitVec 29) : Nat := d.toNat / 2 ^ 20
def dpStep (d : BitVec 29) : Nat := d.toNat / 2 ^ 16 % 16 + 1
def dpCnt (d : BitVec 29) : Nat := d.toNat / 2 ^ 8 % 256 + 1
def dpBlk (d : BitVec 29) : Nat := (d.toNat % 256 + 1) * 64
/-- Receiver `j` of a pattern (R27). -/
def receiver (core : Nat) (d : BitVec 29) (j : Nat) : Nat := dieOfCore core * 512 + (dpFirst d + j * dpStep d) % 512

/-- Rows and bytes of a row of a copy (R210). -/
def copyRows (w2 w3 : Word) : Nat := if w3Dim w3 = 0 then 1 else bitsOf w2 31 20 + 1
def copyRowBytes (w2 w3 : Word) : Nat := if w3Dim w3 = 0 then w2.toNat else bitsOf w2 19 0

/-- The checks of R313 on a dealt destination of `total` bytes at offset `dst`. A receiver outside the core set comes from DPAT,
and no address is at fault (R296). -/
def distFault (s : State) (dst : Word) (total : Nat) : Option Trap :=
  let d := s.cur.dpat
  let q := dpCnt d
  let l := dpBlk d
  let cores := (List.range q).map (receiver s.core d)
  let last := fun (j : Nat) =>
    let blocks := (total + l - 1) / l
    if j < blocks then
      let m := j + (blocks - 1 - j) / q * q
      dst.toNat + m / q * l + (if m + 1 = blocks then (total - 1) % l else l - 1)
    else 0
  if !cores.Nodup then some (Trap.plain Cause.format)
  else if cores.any fun c => !s.inCoreSet s.ctx.rcb c then some (Trap.plain Cause.protection)
  else if (List.range q).any fun j => decide (s.localSize s.ctx.rcb ≤ last j) then some (Trap.at_ Cause.protection dst)
  else none

/-- Tags that a local pointer may have (R210, R231). -/
def localTag (w : Word) : Bool := w.toNat / 2 ^ 60 == 0 || w.toNat / 2 ^ 60 == 0xE || w.toNat / 2 ^ 60 == 0xF

/-- The target of a register fill or a feed, in the issuing core (R210). -/
def fillTarget (s : State) (w : Word) : Option (Fin 16 × GIx) :=
  let t := w.toNat
  if t / 2 ^ 31 ≠ 0 ∨ t % 2 ^ 23 ≠ s.hub.peer.toNat * 2 ^ 11 + s.core then none
  else some (Fin.ofNat 16 (t / 2 ^ 23), Fin.ofNat 16 (t / 2 ^ 27))

/-- The first fault of a list of checks. -/
def firstFault : List (Option Trap) → Option Trap
  | [] => none
  | some t :: _ => some t
  | none :: l => firstFault l

/-- A check that fails with a trap. -/
def failIf (c : Bool) (t : Trap) : Option Trap := if c then some t else none

/-- The checks of DKIND on the destination (R210, R211); a target word is no address (R296). -/
def kindFault (s : State) (w1 w2 w3 : Word) : Option Trap := match w3Dkind w3 with
  | 0 => if w3Dist w3 then none else failIf (!localTag w1) (Trap.at_ Cause.addrTag w1)
  | 1 => if (fillTarget s w1).isNone then some (Trap.plain Cause.protection)
    else failIf (w3Dim w3 != 0 || w2.toNat != 8) (Trap.plain Cause.format)
  | _ => match fillTarget s w1 with
    | none => some (Trap.plain Cause.protection)
    | some (i, r) => if (portIx r).isNone then some (Trap.plain Cause.protection)
      else match (s.ctxAt s.core i).portOf r with
        | none => some (Trap.plain Cause.format)
        | some p => failIf (w3Dim w3 != 0 || p.wr || p.base != 0 || w2.toNat % 2 ^ p.size != 0) (Trap.plain Cause.format)

/-- The destination checks of R210 and R211. Where DIST is 1 with DKIND 01 or 10, the spec does not say whether W1 is the target
word or an offset that is dealt: it is checked as both (DESIGN CHOICE, log 70). -/
def dstFault (s : State) (w1 w2 w3 : Word) : Option Trap :=
  (kindFault s w1 w2 w3).or (if w3Dist w3 then
    (failIf (w3Dim w3 != 0 && bitsOf w2 63 48 != 0) (Trap.plain Cause.format)).or
      (distFault s w1 (copyRows w2 w3 * copyRowBytes w2 w3))
  else none)

/-- The words of a bounded source at a key (R210): descriptor and origin. -/
def State.descWords (s : State) (key : Nat) : List Word := (List.range 5).map fun k => BitVec.ofNat 64 (s.load (key + 8 * k) 8)

/-- Where the bounded source of a copy lies (R210): it is read at issue as a plain load, from a peer too. -/
def descHome (s : State) (w0 : Word) : Except Trap Home := s.element s.who w0 40 64 .read

/-- The words of the bounded source once its home has answered (R153, R210). -/
def State.descAt (s : State) : Home → List Word
  | .mem k => s.descWords k
  | .fab _ _ => s.ctx.answerWords

/-- Word `k` of a list. -/
def nth (l : List Word) (k : Nat) : Word := l.getD k 0

/-- What an engine command needs beside its request words: the home of a bounded source with its length, if any, and what
the command carries or the fault that its contents give. -/
abbrev EngCheck := Option (Home × Nat) × Except Trap EngKind

/-- CPYQ's checks at issue (R210, R211, R313; log 21), and what the command carries. -/
def cpyqCheck (s : State) (w0 w1 w2 w3 : Word) : Except Trap EngCheck :=
  let dim := w3Dim w3
  let esz := 2 ^ w3Esz w3
  let fmt := Trap.plain Cause.format
  let tag := w0.toNat / 2 ^ 60
  match firstFault
    [failIf (bitsOf w3 36 0 != 0 || dim == 3 || w3Dkind w3 == 3 || (dim != 2 && w3Esz w3 != 0)) fmt,
     failIf (!localTag w0 && tag != 8) (Trap.at_ Cause.addrTag w0),
     (if tag = 8 then (s.peerCheck (bitsOf w0 59 48)).map fun c => Trap.at_ c w0 else none),
     failIf (dim == 0 && (w2.toNat == 0 || decide (2 ^ 40 < w2.toNat))) fmt,
     failIf (dim != 0 && (bitsOf w2 19 0 == 0 || (dim == 2 && bitsOf w2 47 32 != 0))) fmt,
     failIf (dim == 2 && bitsOf w2 19 0 % esz != 0) fmt,
     dstFault s w1 w2 w3] with
  | some t => .error t
  | none =>
    if dim ≠ 2 then .ok (none, .ok (.copy w0 w1 w2 w3 s.cur.dpat []))
    else match descHome s w0 with
      | .error t => .error t
      | .ok h =>
        let l := s.descAt h
        .ok (some (h, 40), if bitsOf (nth l 3) 63 32 ≠ 0 ∨ (nth l 2).toNat % esz ≠ 0 then .error fmt
          else .ok (.copy w0 w1 w2 w3 s.cur.dpat l))

/-- The namespace that a region holds under a handle (R402). -/
def State.namespaceOf (s : State) (rcb : Word) (h : Nat) : Option NsEntry :=
  if 1024 ≤ h then none
  else match tabGet s.hub.namespaces h with
    | some e => if e.valid && s.descends e.qregion 64 rcb then some e else none
    | none => none

/-- IORD's checks at issue (R231, R211, R313). Bits 63:16 of W0 are zero, and the rule names no fault where they are not: such a
handle names no namespace, and the fault is PROTECTION (DESIGN CHOICE, log 71). -/
def iordCheck (s : State) (w0 w1 w2 w3 : Word) : Except Trap EngCheck :=
  match firstFault
    [failIf (bitsOf w3 36 32 != 0 || bitsOf w3 47 42 != 0 || bitsOf w3 31 0 == 0) (Trap.plain Cause.format),
     (if w3Dist w3 then distFault s w2 (bitsOf w3 31 0) else failIf (!localTag w2) (Trap.at_ Cause.addrTag w2))] with
  | some t => .error t
  | none => match (if w0.toNat / 2 ^ 16 = 0 then s.namespaceOf s.ctx.rcb w0.toNat else none) with
    | none => .error (Trap.plain Cause.protection)
    | some ns => .ok (none, .ok (.io w0 w1 w2 w3 s.cur.dpat ns))

/-- A transfer that has not begun. -/
def Work.init : Work := { pos := 0, past := [], open_ := [], asks := [], read := 0, sent := 0 }

/-- An operation takes the next number of its engine context (R28, R209). -/
def State.issueEng (s : State) (e : Fin 4) (k : EngKind) (started mbx : Bool) : State :=
  let c := s.ctx
  s.modCur fun x =>
    let n := x.ecx[e].issued + 1
    { x with
      ecx := x.ecx.set e { x.ecx[e] with issued := n }
      engs := x.engs ++ [{ ecx := e, n := n, kind := k, slot := s.slot, tid := c.tid, rcb := c.rcb, privBase := c.privBase
                           privSize := c.privSize, started := started, work := Work.init, flags := 0, filling := false
                           io := none }]
      pending := if mbx then x.pending + 1 else x.pending }

/-- Is an engine command held back by a FENCE (R167)? One of order .acq holds accesses only. -/
def State.commandHeld (s : State) : Bool := s.heldRel

/-- A command of four request words (R209): checked in both forms whatever the FIFO holds. `bz` names the predicate of
that form. The trailing copy of an RDT task takes the number and the predicate from the load-value queue (R380). -/
def enginePlan (s : State) (a : GIx) (bz : Option PIx) (check : Word → Word → Word → Word → Except Trap EngCheck)
    (plainRead : Word → Bool) : Plan :=
  let g := fun k => Fin.ofNat 16 (a.val + k)
  let w3 := s.gv (g 3)
  let write := fun (ws : List Word) (t : State) =>
    let t1 := if ws.getD 1 0 = 1 then t.writeG (g 3) (ws.headD 0) else t
    match bz with
    | some p => if ws.isEmpty then t1 else t1.writeP p (ws.getD 1 0 == 1)
    | none => t1
  gated s [a, g 1, g 2, g 3] [] [g 3] [] (
    if s.rdt && s.ctx.trail then outside s [] write
    else if s.commandHeld || (plainRead w3 && s.plainBlocked) || (s.rdt && s.lvFull) then .park .mem
    else match check (s.gv a) (s.gv (g 1)) (s.gv (g 2)) w3 with
      | .error t => .trap t
      | .ok (d, r) =>
        let e := w3Ecx w3 s.ctx.ecxsel
        let n := BitVec.ofNat 64 (s.cur.ecx[e].issued + 1)
        let keep := fun (ws : List Word) (t : State) => if t.rdt then (write ws t).keepLv ws else write ws t
        lateRead s d (s.gv a) true (match r with
          | .error t => .trap t
          | .ok k =>
            if 8 ≤ s.cur.fifoLen then (if bz.isNone then .park .mem else .act (keep [0, 0]))
            else .act fun t => keep [n, 1] (t.issueEng e k false (w3Mbx w3))))

/-- R209 to R212. -/
def planCpyqWt (a : GIx) (s : State) : Plan := enginePlan s a none (cpyqCheck s) fun w => w3Dim w == 2
/-- R209 to R212. -/
def planCpyqBz (p : PIx) (a : GIx) (s : State) : Plan := enginePlan s a (some p) (cpyqCheck s) fun w => w3Dim w == 2
/-- R209, R231. -/
def planIordWt (a : GIx) (s : State) : Plan := enginePlan s a none (iordCheck s) fun _ => false
/-- R209, R231. -/
def planIordBz (p : PIx) (a : GIx) (s : State) : Plan := enginePlan s a (some p) (iordCheck s) fun _ => false

/-! ### TPLANE (R175) -/

/-- The fields of TPLANE's control word (R175). -/
def tpFmt (w : Word) : Nat := bitsOf w 3 0
def tpMx (w : Word) : Bool := w.getLsbD 4
def tpKaxis (w : Word) : Bool := w.getLsbD 5
def tpLines (w : Word) : Nat := bitsOf w 23 16 + 1
def tpBlocks (w : Word) : Nat := bitsOf w 30 24 + 1
def tpStride (w : Word) : Nat := bitsOf w 63 32
/-- Bytes of a source element, E2M1 as one (R175, R176). -/
def tpEsz (w : Word) : Nat := match tpFmt w with | 0 => 4 | 1 | 2 => 2 | _ => 1

/-- R175. -/
def planTplane (p : Fin 8) (d a b : GIx) (s : State) : Plan :=
  let w := s.gv b
  let dst := s.gv d
  let a1 : GIx := a + 1
  let n := tpLines w * tpBlocks w * (4 * (p.val + 2))
  let gs := if tpMx w then [d, a, b, a1] else [d, a, b]
  effect s gs [] true (gated s gs [] [] [] (
    if s.commandHeld then .park .mem
    else match firstFault
      [failIf s.nomx (Trap.plain Cause.matrixAbsent),
       failIf (decide (6 < tpFmt w) || (tpMx w && decide (tpFmt w < 3)) || bitsOf w 15 6 != 0 || w.getLsbD 31 ||
         tpStride w % tpEsz w != 0) (Trap.plain Cause.format),
       failIf (dst.toNat / 2 ^ 21 != 0) (Trap.at_ Cause.addrTag dst),
       failIf (dst.toNat % 4 != 0) (Trap.at_ Cause.misalign dst),
       failIf (decide (2 ^ 21 < dst.toNat + n)) (Trap.at_ Cause.protection dst),
       failIf ((s.gv a).toNat / 2 ^ 60 == 8) (Trap.at_ Cause.addrTag (s.gv a)),
       failIf (tpMx w && (s.gv a1).toNat / 2 ^ 60 == 8) (Trap.at_ Cause.addrTag (s.gv a1)),
       failIf (!s.padAllowed (clusterOfCore s.core) s.ctx.rcb) (Trap.at_ Cause.protection dst)] with
    | some t => .trap t
    | none => .act fun t => t.issueEng (Fin.ofNat 4 s.ctx.ecxsel.toNat)
        (.plane dst (s.gv a) (if tpMx w then s.gv a1 else 0) w (p.val + 1) s.ctx.rnd) true false))

/-! ### The mailbox (R29, R214 to R216) -/

/-- Does an entry match a selector (R215)? -/
def mailMatch (sel : Word) (e : Word × Word) : Bool :=
  (bitsOf e.1 47 32) &&& (bitsOf sel 31 16) == (bitsOf sel 15 0) &&& (bitsOf sel 31 16)

/-- Tasks of a core that wait, with what they wait for, in their slots and their images. -/
def Core.waiting (c : Core) : List (BitVec 48 × WaitRec) :=
  (c.slots.toList.filterMap fun sl => if sl.st != .empty && !sl.ctx.trail then sl.ctx.wait.map fun w => (sl.ctx.tid, w) else none) ++
    c.images.filterMap fun im => im.ctx.wait.map fun w => (im.ctx.tid, w)

/-- Tasks that WFM keeps waiting wake when a matching entry is present, or abandoned when no post is pending (R215). -/
def State.wakeMail (s : State) (n : Nat) : State := (s.coreAt n).waiting.foldl (fun s e => match e.2.on with
  | .mbox tag mask =>
    let sel := BitVec.ofNat 64 (tag.toNat + mask.toNat * 2 ^ 16)
    if (s.coreAt n).mailbox.any (mailMatch sel) then s.wakeTask e.1 0 0
    else if (s.coreAt n).pending = 0 then s.wakeTask e.1 2 0
    else s
  | _ => s) s

/-- An entry posted to a core's mailbox (R29, R374); `counted` says that the pending-post count held it. -/
def State.post (s : State) (n : Nat) (e0 e1 : Word) (counted : Bool) : State :=
  (s.modCore n fun c =>
    let c1 := { c with pending := if counted then c.pending - 1 else c.pending }
    if c.sealed then c1
    else if c.mailbox.length < 32 then { c1 with mailbox := c.mailbox ++ [(e0, e1)] }
    else { c1 with lost := min 255 (c.lost + 1) }).wakeMail n

/-- R215. -/
def planWfm (d b : GIx) (s : State) : Plan :=
  let sel := s.gv b
  effect s [b] [d] false (gated s [b] [] [d] [] (
    if sel.toNat / 2 ^ 32 ≠ 0 then .trap (Trap.plain Cause.format)
    else if s.ctx.minRank = 0 then .trap (objTrap Cause.obrank 0 0 0)
    else if s.cur.mailbox.any (mailMatch sel) then .act fun t => t.waitDone d 0 0
    else if s.cur.pending = 0 then .trap (objTrap Cause.unownedWait 0 0 s.ctx.minRank)
    else .go id fun _ u => (u.modCtx fun c => { c with
      wait := some { on := .mbox (BitVec.ofNat 16 sel.toNat) (BitVec.ofNat 16 (sel.toNat / 2 ^ 16)), dst := some d, sh := false
                     pc := s.ctx.pc, pair := s.pair } }).enter .mailbox))

/-- R216. -/
def planMbrd (d b : GIx) (s : State) : Plan :=
  let sel := s.gv b
  effect s [b] [d, d + 1] true (gated s [b] [] [d, d + 1] [] (
    if sel.toNat / 2 ^ 32 ≠ 0 then .trap (Trap.plain Cause.format)
    else match s.cur.mailbox.find? (mailMatch sel) with
      | some e => .act fun t => ((t.modCur fun c => { c with mailbox := c.mailbox.eraseP (mailMatch sel) }).writeG d e.1).writeG (d + 1) e.2
      | none => .act fun t => (t.writeG d 0).writeG (d + 1) 0))

/-- R232. -/
def planScnext (q : PIx) (d : GIx) (s : State) : Plan :=
  let entry : Option Word := match s.cur.sched with
    | some l => if l.rcb = s.ctx.rcb then l.list[l.cursor]? else none
    | none => none
  let write := fun (ws : List Word) (t : State) => (t.writeG d (ws.headD 0)).writeP q (ws.getD 1 0 == 1)
  gated s [] [] [d] [] (
    if s.rdt && s.ctx.trail then outside s [] write
    else if s.rdt && s.lvFull then .park .mem
    else .act fun t =>
      let ws := match entry with
        | some v => [v, 1]
        | none => [0, 0]
      let t1 := t.modCur fun c => { c with sched := c.sched.map fun l => { l with cursor := if entry.isSome then l.cursor + 1 else l.cursor } }
      if t.rdt then (write ws t1).keepLv ws else write ws t1)

/-! ### Completion (R213, R28) -/

/-- TLINE advances over every number that has completed (R28). -/
def lineFrom (done : List Nat) (line : Nat) : Nat → Nat
  | 0 => line
  | n + 1 => if done.contains (line + 1) then lineFrom done (line + 1) n else line

/-- An operation of an engine context completed (R28). -/
def Ecx.complete (x : Ecx) (n : Nat) : Ecx :=
  let done := n :: x.done
  let line := lineFrom done x.line done.length
  { x with done := done.filter fun k => line < k, line := line }

/-- Tasks that TLWAIT keeps waiting wake (R199). -/
def State.wakeLine (s : State) (n : Nat) (e : Fin 4) : State := (s.coreAt n).waiting.foldl (fun s w => match w.2.on with
  | .line f t => if f = e ∧ t.toNat ≤ ((s.coreAt n).ecx[e]).line then s.wakeTask w.1 0 0 else s
  | _ => s) s

/-- The mailbox kind, the tag and MBX of an operation (R214, R176). -/
def EngKind.info : EngKind → Nat × Nat × Bool
  | .copy _ _ _ w3 _ _ => (1, w3Tag w3, w3Mbx w3)
  | .io _ _ _ w3 _ _ => (2, w3Tag w3, w3Mbx w3)
  | .plane .. => (3, 0, false)

/-- Mailbox entries in the order of their operations' numbers. -/
def insertPost (e : Nat × Word × Word × Bool) : List (Nat × Word × Word × Bool) → List (Nat × Word × Word × Bool)
  | [] => [e]
  | x :: l => if e.1 < x.1 then e :: x :: l else x :: insertPost e l

/-- The mailbox entries of an engine context that its timeline covers are posted (R213, R289). -/
def State.postDue (s : State) (n : Nat) (e : Fin 4) : State :=
  let x := (s.coreAt n).ecx[e]
  (x.posts.filter fun p => decide (p.1 ≤ x.line)).foldl (fun s p => s.post n p.2.1 p.2.2.1 p.2.2.2)
    (s.modCore n fun c => { c with ecx := c.ecx.set e { c.ecx[e] with posts := c.ecx[e].posts.filter fun p => decide (x.line < p.1) } })

/-- An engine operation completes with a status (R213): its error is logged, the timeline advances over it once every lower
number has completed, the waiters wake, and then its entry is posted. A TPLANE posts only when it fails (R176). -/
def State.finishOp (s : State) (n : Nat) (op : EngOp) (status : BitVec 8) (bytes : Nat) (detail : BitVec 16) : State :=
  let (kind, tag, mbx) := op.kind.info
  let log := BitVec.ofNat 64 (op.n % 2 ^ 24 * 2 ^ 40 + status.toNat * 2 ^ 32 + tag * 2 ^ 16 + detail.toNat)
  let e0 := BitVec.ofNat 64 (kind * 2 ^ 56 + status.toNat * 2 ^ 48 + tag * 2 ^ 32 + op.ecx.val * 2 ^ 30)
  let e1 := BitVec.ofNat 64 (op.n % 2 ^ 24 * 2 ^ 40 + bytes % 2 ^ 40)
  ((s.modCore n fun c =>
    let x := c.ecx[op.ecx]
    { c with
      engs := c.engs.filter fun o => !(o.ecx == op.ecx && o.n == op.n)
      ecx := c.ecx.set op.ecx { x.complete op.n with
        errs := if status = 0 then x.errs else (log :: x.errs).take 8
        posts := if mbx || (kind == 3 && status != 0) then insertPost (op.n, e0, e1, mbx) x.posts else x.posts }
      pcnt5 := c.pcnt5 + 1 }).wakeLine n op.ecx).postDue n op.ecx

/-! ### The work of an operation (R212, R176, R231) -/

/-- The task that issued an operation, as an address user. -/
def EngOp.who (op : EngOp) (core : Nat) : Who :=
  { core := core, rcb := op.rcb, tid := op.tid, privBase := op.privBase, privSize := op.privSize.toNat }

/-- An engine's write at a key, within one protection unit (R309, R321, R375). -/
def State.engWrite (s : State) (core key : Nat) (l : List Byte) : Except (BitVec 8) State :=
  let bad : Option (BitVec 8) := match spaceOf key with
    | .loc c => if (s.coreAt c).contained then some 0x03 else none
    | .second p => match tabGet s.hub.expanders p with
      | some (_, true) => none
      | _ => some 0x01
    | _ => none
  match bad with
  | some e => .error e
  | none =>
    if s.frozen core (.mem key) then .error 0x02
    else if s.dropsStore key l.length then .error 0x03
    else .ok (s.store key l.length (ofBytes l))

/-- A transfer seen byte by byte (R212, R231, R329): where byte `t` comes from, an address or a byte to write as it is, and the
key that it goes to. It moves in pieces of `w` bytes or less, aligned at the destination, whose segments of `seg` bytes begin
`off` bytes into an aligned piece. -/
structure Layout where
  total : Nat
  seg : Nat
  off : Nat
  w : Nat
  src : Nat → Word ⊕ Byte
  dst : State → Nat → Except (BitVec 8) Nat

/-- The pieces of a segment, and of the transfer. -/
def Layout.perSeg (l : Layout) : Nat := (l.off + l.seg + l.w - 1) / l.w
def Layout.count (l : Layout) : Nat :=
  l.total / l.seg * l.perSeg + (if l.total % l.seg = 0 then 0 else (l.off + l.total % l.seg + l.w - 1) / l.w)
/-- Piece `k`: its first byte and its length. -/
def Layout.piece (l : Layout) (k : Nat) : Nat × Nat :=
  let base := k / l.perSeg * l.seg
  let j := k % l.perSeg
  let lo := base + (l.w * j - l.off)
  (lo, min (base + min (l.w * (j + 1) - l.off) l.seg) l.total - lo)

/-- Is piece `k` done? -/
def Work.isDone (x : Work) (k : Nat) : Bool := decide (k < x.pos) || x.past.contains k
/-- The first piece that is not done, from `pos` on. -/
def posFrom (past : List Nat) (pos : Nat) : Nat → Nat
  | 0 => pos
  | n + 1 => if past.contains pos then posFrom past (pos + 1) n else pos
/-- Piece `k` is done, and has written `n` bytes. -/
def Work.finish (x : Work) (k n : Nat) : Work :=
  let past := k :: x.past
  let pos := posFrom past x.pos past.length
  { x with pos := pos, past := past.filter fun j => decide (pos ≤ j), open_ := x.open_.filter fun p => p.k != k, sent := x.sent + n }
/-- The piece that an event for piece `k` moves: the first that is not done, where `k` is none. -/
def Work.turn (x : Work) (n k : Nat) : Nat := if k < n && !x.isDone k then k else x.pos
/-- The piece that is under way. -/
def Work.at_ (x : Work) (k : Nat) : Option Piece := x.open_.find? fun p => p.k == k
/-- A piece under way changed, or begun. -/
def Work.put (x : Work) (p : Piece) : Work := { x with open_ := (x.open_.filter fun q => q.k != p.k) ++ [p] }

/-- What a transfer comes to: it goes on, or it ends with an error status (R213). -/
inductive Moved
  | on (s : State) (x : Work)
  | fail (s : State) (x : Work) (status : BitVec 8)

/-- A fabric read of an engine leaves (R212, R160). -/
def State.sendAsk (s : State) (core : Nat) (a : EngAsk) : State := s.sendPkt (readPkt core a.peer a.off a.len (rtagOf a.rid 0))

/-- Byte `at_` of piece `k` lies at a peer: it joins the read that ends before it, or starts one (R212). -/
def joinAsk (k at_ : Nat) (peer : BitVec 12) (off : BitVec 48) (l : List EngAsk) : List EngAsk :=
  match l.getLast? with
  | some a =>
    if a.k = k ∧ a.at_ + a.len = at_ ∧ a.peer = peer ∧ a.off + BitVec.ofNat 48 a.len = off then l.dropLast ++ [{ a with len := a.len + 1 }]
    else l ++ [{ k := k, at_ := at_, len := 1, peer := peer, off := off, rid := 0, resends := 0 }]
  | none => [{ k := k, at_ := at_, len := 1, peer := peer, off := off, rid := 0, resends := 0 }]

/-- What reading some bytes of a piece has come to: the bytes so far, the reads to send, the bytes read, and an error with the
key at which it was found. -/
structure Reading where
  got : List (Option Word)
  asks : List EngAsk
  n : Nat
  err : Option (BitVec 8 × Option Nat)

/-- Byte `i` of piece `k`, which is byte `t` of a transfer, is read into its place (R212, R213). -/
def State.readByte (s : State) (who : Who) (err : Bool) (l : Layout) (k i t : Nat) (r : Reading) : Reading :=
  if r.err.isSome then r
  else match l.src t with
    | .inr b => { r with got := r.got.set i (some (b.zeroExtend 64)) }
    | .inl p => match s.resolve who p .read with
      | .error c => { r with err := some (statusOfCause c, none) }
      | .ok (.fab q o) => { r with asks := joinAsk k i q o r.asks }
      | .ok (.mem key) => match s.dataFault key 1 err with
        | some f => { r with err := some (statusOfCause f.1, if f.2 then some key else none) }
        | none => { r with got := r.got.set i (some ((s.byte key).zeroExtend 64)), n := r.n + 1 }

/-- Fabric reads leave, each under a number of its own. -/
def State.sendAsks (s : State) (core : Nat) (x : Work) : List EngAsk → State × Work
  | [] => (s, x)
  | a :: l =>
    let a' := { a with rid := s.seq }
    ((s.sendAsk core a').bump).sendAsks core { x with asks := x.asks ++ [a'] } l

/-- Byte `i` of piece `k` of a transfer is to be written as it is, or comes from an address. -/
def Layout.fixed (l : Layout) (k i : Nat) : Option Byte := match l.src ((l.piece k).1 + i) with
  | .inr b => some b
  | .inl _ => none
/-- The aligned 8-byte word in which the source of byte `i` of piece `k` lies (R281). -/
def Layout.word (l : Layout) (k i : Nat) : Nat := match l.src ((l.piece k).1 + i) with
  | .inl p => p.toNat / 8
  | .inr _ => 0
/-- Piece `k` before any of its reads. -/
def Layout.fresh (l : Layout) (k : Nat) : Piece :=
  let is := List.range (l.piece k).2
  { k := k, got := is.map fun i => (l.fixed k i).map (·.zeroExtend 64), out := [], todo := is.filter fun i => (l.fixed k i).isNone }
/-- The bytes of a piece that one read takes: those still to be read in the source word of choice `c`. -/
def Layout.group (l : Layout) (k c : Nat) (todo : List Nat) : List Nat :=
  let ws := (todo.map (l.word k)).eraseDups
  todo.filter fun i => l.word k i == ws.getD (c % ws.length) 0

/-- Is there a byte of piece `k` still to be read? -/
def Work.reading (x : Work) (k : Nat) : Bool := (x.at_ k).all fun p => !p.todo.isEmpty
/-- Is one of the next `k` result tags of a core still in use (R348)? -/
def State.tagsInUse (s : State) (n k : Nat) : Bool := (List.range k).any fun j => (s.coreAt n).rids.any fun r => r % 1024 == (s.seq + j) % 1024

/-- A piece reads the next of its source words, by choice `c`: in this device at this instant, or from its peers (R281, R289);
a fabric read waits for a result tag (R348). -/
def State.openPiece (s : State) (core : Nat) (who : Who) (err : Bool) (l : Layout) (x : Work) (k c : Nat) : Moved :=
  let p := (x.at_ k).getD (l.fresh k)
  let is := l.group k c p.todo
  let r := is.foldl (fun r i => s.readByte who err l k i ((l.piece k).1 + i) r) { got := p.got, asks := [], n := 0, err := none }
  match r.err with
  | some (e, key) => .fail (match key with | some u => s.foundError u 1 | none => s) { x with read := x.read + r.n } e
  | none =>
    if s.tagsInUse core r.asks.length then .on s x
    else
      let y := s.sendAsks core (({ x with read := x.read + r.n } : Work).put { p with got := r.got, todo := p.todo.filter fun i => !is.contains i }) r.asks
      .on y.1 y.2

/-- The bytes of a piece, once all of them are there. -/
def Piece.bytes (p : Piece) : Option (List Byte) := if p.got.all (·.isSome) then some (p.got.map fun w => (w.getD 0).truncate 8) else none

/-- The pieces that make up the poisoned protection unit of piece `k`, which lies at `key`: none where the transfer does not
cover the whole of it (R321). -/
def Layout.unitPieces (l : Layout) (k key : Nat) : Option (List Nat) :=
  let u := unitSize (spaceOf key)
  let back := key % u
  let t0 := (l.piece k).1
  let base := t0 / l.seg * l.seg
  if u = 64 ∧ l.w = 8 ∧ base + back ≤ t0 ∧ t0 - back + 64 ≤ min (base + l.seg) l.total then
    some ((List.range 8).map fun j => k - back / 8 + j)
  else none

/-- A piece that has been read is written (R281). Where its protection unit is poisoned and the transfer covers the whole of
it, the pieces of the unit are written together, once all have been read, and clear the poison (R321). -/
def State.storePiece (s : State) (core : Nat) (who : Who) (err : Bool) (l : Layout) (x : Work) (k : Nat) (c : Nat)
    (bytes : List Byte) : Moved :=
  match l.dst s (l.piece k).1 with
  | .error e => .fail s x e
  | .ok key =>
    match (if s.dropsStore key bytes.length then l.unitPieces k key else none) with
    | none => match s.engWrite core key bytes with
      | .error e => .fail s x e
      | .ok s1 => .on s1 (x.finish k bytes.length)
    | some ks => match ks.find? x.reading with
      | some j => s.openPiece core who err l x j c
      | none =>
        let parts := ks.map fun j => (x.at_ j).bind (·.bytes)
        if parts.all (·.isSome) then match s.engWrite core (key / 64 * 64) (parts.flatMap fun b => b.getD []) with
          | .error e => .fail s x e
          | .ok s1 => .on s1 (ks.foldl (fun x j => x.finish j 8) x)
        else .on s x

/-- A transfer moves on at piece `k`: a word of the piece is read, by choice `c`, or the piece is written once it has been read. -/
def State.movePiece (s : State) (core : Nat) (who : Who) (err : Bool) (l : Layout) (x : Work) (k c : Nat) : Moved :=
  if x.reading k then s.openPiece core who err l x k c
  else match (x.at_ k).bind (·.bytes) with
    | some bytes => s.storePiece core who err l x k c bytes
    | none => .on s x

/-- The destination of byte `t` of a dealt transfer (R312). -/
def dealtKey (core : Nat) (rcb : Word) (d : BitVec 29) (dst : Word) (s : State) (t : Nat) : Except (BitVec 8) Nat :=
  let l := dpBlk d
  let m := t / l
  match s.localKey (receiver core d (m % dpCnt d)) rcb (dst.toNat + m / dpCnt d * l + t % l) with
  | .error c => .error (statusOfCause c)
  | .ok k => .ok k

/-- The destination of a byte at an address (R36, R212). -/
def addrKey (who : Who) (p : Word) (s : State) : Except (BitVec 8) Nat := match s.resolve who p .write with
  | .error c => .error (statusOfCause c)
  | .ok (.fab _ _) => .error 0x04
  | .ok (.mem k) => .ok k

/-- The source of byte `t` of a copy (R212): an address, or a byte of FILL outside the tensor. -/
def copySrc (w0 w2 w3 : Word) (desc : List Word) (t : Nat) : Word ⊕ Byte :=
  let rb := copyRowBytes w2 w3
  let r := t / rb
  let o := t % rb
  if w3Dim w3 ≠ 2 then
    .inl (w0 + BitVec.ofNat 64 r * BitVec.ofInt 64 (if w3Dim w3 = 0 then 0 else sbits w2 47 32 * 64) + BitVec.ofNat 64 o)
  else
    let esz := 2 ^ w3Esz w3
    let x : Tensor := { base := nth desc 0, rows := bitsOf (nth desc 1) 31 0, cols := bitsOf (nth desc 1) 63 32, stride := nth desc 2
                        fill := BitVec.ofNat 32 (nth desc 3).toNat }
    match x.at_ esz (sbits (nth desc 4) 31 0 + r) (sbits (nth desc 4) 63 32 + (o / esz : Nat)) with
    | some p => .inl (p + BitVec.ofNat 64 (o % esz))
    | none => .inr (BitVec.ofNat 8 (bitsOf (nth desc 3) 31 0 / 2 ^ (8 * (o % esz))))

/-- The destination of byte `t` of a copy of rows of `rb` bytes, `ds` bytes apart; DIST deals them (R212, R312). -/
def rowsDst (core : Nat) (who : Who) (dist : Option (BitVec 29)) (w1 ds : Word) (rb : Nat) (s : State) (t : Nat) : Except (BitVec 8) Nat :=
  match dist with
  | some d => dealtKey core who.rcb d w1 s t
  | none => addrKey who (w1 + BitVec.ofNat 64 (t / rb) * ds + BitVec.ofNat 64 (t % rb)) s

/-- A copy to memory as a transfer (R212). -/
def copyLayout (core : Nat) (who : Who) (w0 w1 w2 w3 : Word) (dpat : BitVec 29) (desc : List Word) : Layout :=
  let rb := copyRowBytes w2 w3
  let dist := if w3Dist w3 then some dpat else none
  { total := copyRows w2 w3 * rb, seg := if w3Dist w3 then dpBlk dpat else rb, off := w1.toNat % 8, w := 8
    src := copySrc w0 w2 w3 desc
    dst := rowsDst core who dist w1 (BitVec.ofInt 64 (if w3Dim w3 = 0 then 0 else sbits w2 63 48 * 64)) rb }

/-- A copy of `n` bytes from one address to another (R329). -/
def plainLayout (who : Who) (src dst : Word) (n : Nat) : Layout :=
  { total := n, seg := n, off := dst.toNat % 8, w := 8, src := fun t => .inl (src + BitVec.ofNat 64 t)
    dst := fun s t => addrKey who (dst + BitVec.ofNat 64 t) s }

/-- The source of a register fill or a feed, in elements of `n` bytes (R212). -/
def feedLayout (w0 : Word) (total n : Nat) : Layout :=
  { total := total, seg := total, off := 0, w := n, src := fun t => .inl (w0 + BitVec.ofNat 64 t), dst := fun _ _ => .error 0x04 }

/-- The bytes that a storage device has returned, as a transfer (R231). -/
def ioLayout (core : Nat) (who : Who) (data : List Byte) (w2 w3 : Word) (dpat : BitVec 29) : Layout :=
  { total := data.length, seg := if w3Dist w3 then dpBlk dpat else data.length, off := w2.toNat % 8, w := 8
    src := fun t => .inr (data.getD t 0)
    dst := rowsDst core who (if w3Dist w3 then some dpat else none) w2 0 data.length }

/-- The source format of a TPLANE (R175), INT8 as none. -/
def tpSource (w : Word) : Option Fmt := match tpFmt w with
  | 0 => some .fp32 | 1 => some .fp16 | 2 => some .bf16 | 3 => some .e5m2 | 4 => some .e4m3 | 5 => some .e2m1 | _ => none

/-- The value of a source code (R176, R81): MXINT8 counts in 2^-6. -/
def tpValue (w : Word) (c : Nat) : FVal := match tpSource w with
  | some f => decodeF f c
  | none =>
    let x := (BitVec.ofNat 8 c).toInt
    .fin (decide (x < 0)) x.natAbs (if tpMx w then -6 else 0)

/-- The address of Elem(l, k) and the shift of its nibble, with the bytes that are new to the reader (R176). -/
def tpElem (src : Word) (w : Word) (l k : Nat) : Word × Nat × Nat :=
  let stride := BitVec.ofNat 64 (tpStride w)
  let along := if tpKaxis w then l else k
  let across := if tpKaxis w then k else l
  let row := src + BitVec.ofNat 64 across * stride
  if tpFmt w = 5 then (row + BitVec.ofNat 64 (along / 2), along % 2 * 4, if along % 2 = 0 then 1 else 0)
  else (row + BitVec.ofNat 64 (along * tpEsz w), 0, tpEsz w)

/-- An aligned read of an engine: the value, or a status with the key of an error that it found (R36, R176). -/
def State.engRead (s : State) (w : Who) (p : Word) (n : Nat) (err : Bool) : Except (BitVec 8 × Option Nat) Nat :=
  match s.element w p n n .read with
  | .error t => .error (statusOfCause t.cause, none)
  | .ok (.fab _ _) => .error (0x04, none)
  | .ok (.mem k) => match s.dataFault k n err with
    | some f => .error (statusOfCause f.1, if f.2 then some k else none)
    | none => .ok (s.load k n)

/-- Reads of a plane block: 32 source values, and its scale (R175). -/
def tpReads (ctl : Word) : Nat := if tpMx ctl then 33 else 32

/-- Read `j` of plane block `k`: its address, its bytes, the shift of its nibble, and the source bytes that are new. -/
def tpRead (src scale ctl : Word) (k j : Nat) : Word × Nat × Nat × Nat :=
  let l := k / tpBlocks ctl
  let b := k % tpBlocks ctl
  if j < 32 then
    let e := tpElem src ctl l (32 * b + j)
    (e.1, tpEsz ctl, e.2.1, e.2.2)
  else (scale + BitVec.ofNat 64 (l * tpBlocks ctl + b), 1, 0, 0)

/-- The words and flags of a plane block, from what has been read of it (R176). -/
def tpResult (p : Nat) (mode : RMode) (ctl : Word) (got : List (Option Word)) : List Nat × Flags :=
  planeBlock p mode (if tpMx ctl then ((got.getD 32 none).getD 0).toNat else 0x7F)
    ((got.take 32).map fun w => tpValue ctl (w.getD 0).toNat)

/-- A plane block reads one of its values, or writes one of its words, by choice `c` (R176, R289); the words of a poisoned unit
that it covers go together (R321). -/
def State.moveBlock (s : State) (core : Nat) (who : Who) (err : Bool) (op : EngOp) (dst src scale ctl : Word) (p : Nat) (mode : RMode)
    (k c : Nat) : Moved × Flags :=
  let x := op.work
  let m := tpReads ctl
  let b := (x.at_ k).getD { k := k, got := List.replicate m none, out := [], todo := List.range m }
  let i := b.todo.getD (c % b.todo.length) 0
  if b.out.isEmpty then
    let r := tpRead src scale ctl k i
    match s.engRead who r.1 r.2.1 err with
    | .error (c, key) => (.fail (match key with | some u => s.foundError u r.2.1 | none => s) x c, 0)
    | .ok v =>
      let got := b.got.set i (some (BitVec.ofNat 64 (if tpFmt ctl = 5 ∧ i < 32 then v / 2 ^ r.2.2.1 % 16 else v)))
      let todo := b.todo.filter fun j => j != i
      let y := { x with read := x.read + r.2.2.2 }
      if !todo.isEmpty then (.on s (y.put { b with got := got, todo := todo }), 0)
      else
        let z := tpResult p mode ctl got
        (.on s (y.put { k := k, got := got, out := z.1.map (BitVec.ofNat 64), todo := List.range z.1.length }), z.2)
  else
    let base := padBase (clusterOfCore core) + dst.toNat + k * (4 * (p + 1))
    let u := (base + 4 * i) / 8 * 8
    let j := (u - base) / 4
    let both := s.poisoned u 8 && decide (base ≤ u) && b.todo.contains j && b.todo.contains (j + 1)
    let is := if both then [j, j + 1] else [i]
    match s.engWrite core (if both then u else base + 4 * i) (is.flatMap fun j => bytesLE 4 (b.out.getD j 0).toNat) with
    | .error c => (.fail s x c, 0)
    | .ok s1 =>
      let todo := b.todo.filter fun j => !is.contains j
      (.on s1 (if todo.isEmpty then x.finish k (4 * (p + 1)) else x.put { b with todo := todo }), 0)

/-- An operation of a core changed. -/
def State.modEng (s : State) (n : Nat) (op : EngOp) (f : EngOp → EngOp) : State := s.modCore n fun c =>
  { c with engs := c.engs.map fun o => if o.ecx == op.ecx && o.n == op.n then f o else o }

/-- A transfer of an operation has moved: it goes on, or the operation ends (R213). `bytes` counts what its entry reports. -/
def State.afterMove (s : Moved) (n : Nat) (op : EngOp) (bytes : Work → Nat) : State := match s with
  | .on s x => s.modEng n op fun o => { o with work := x }
  | .fail s x e => s.finishOp n op e (bytes x) 0

/-- A register fill by an engine (R212, R177): the bytes are read, and the fill waits in the core's queue; the copy completes
once the register has been filled. -/
def State.engFill (s : State) (core : Nat) (op : EngOp) (w0 w1 : Word) (err : Bool) (c : Nat) : State :=
  let t := w1.toNat
  let i : Fin 16 := Fin.ofNat 16 (t / 2 ^ 23)
  if op.filling then
    (if (s.coreAt core).fills.any fun f => f.eng == some (op.ecx, op.n) then s else s.finishOp core op 0 8 0)
  else if op.work.reading 0 then State.afterMove (s.openPiece core (op.who core) err (feedLayout w0 8 8) op.work 0 c) core op (·.read)
  else match (op.work.at_ 0).bind (·.bytes) with
    | none => s
    | some got =>
      if (s.slotAt core i).st = .empty ∨ (s.ctxAt core i).rcb ≠ op.rcb then s.finishOp core op 0x02 8 0
      else if 16 ≤ (s.coreAt core).fills.length then s
      else (s.modCore core fun c => { c with
        fills := c.fills ++ [{ slot := i, reg := Fin.ofNat 16 (t / 2 ^ 27), val := BitVec.ofNat 64 (ofBytes got), rcb := op.rcb
                               src := none, eng := some (op.ecx, op.n) }] }).modEng core op fun o => { o with filling := true }

/-- A stream-port feed (R212): elements go into the port's FIFO in order while it has room; a full FIFO holds the copy. -/
def State.engFeed (s : State) (core : Nat) (op : EngOp) (w0 w1 w2 : Word) (err : Bool) (k : Nat) : State :=
  let t := w1.toNat
  let i : Fin 16 := Fin.ofNat 16 (t / 2 ^ 23)
  let r : GIx := Fin.ofNat 16 (t / 2 ^ 27)
  match (s.ctxAt core i).portOf r, portIx r with
  | some p, some j =>
    if p.wr || (s.ctxAt core i).rcb != op.rcb then s.finishOp core op 0x02 op.work.read 0
    else
      let n := 2 ^ p.size
      let l := feedLayout w0 w2.toNat n
      let c := k / l.count
      let k := op.work.turn l.count (k % l.count)
      if op.work.reading k then State.afterMove (s.openPiece core (op.who core) err l op.work k c) core op (·.read)
      else match (op.work.at_ k).bind (·.bytes) with
        | none => s
        | some got =>
          if k ≠ op.work.pos ∨ s.portRoom core i p = 0 then s
          else ((s.feedPort core i j [extend n p.sx (ofBytes got)] 0).modEng core op fun o =>
            { o with work := o.work.finish k n }).goOn core i false
  | _, _ => s.finishOp core op 0x02 op.work.read 0

/-- A storage read (R231): the device answers once, and the bytes that it gave go to the destination; a device error, a
misaligned offset or missing bytes give STATUS IO. -/
def State.moveIo (s : State) (core : Nat) (op : EngOp) (w1 w2 w3 : Word) (dpat : BitVec 29) (ns : NsEntry) (io : IoReply) (k : Nat) : State :=
  let len := bitsOf w3 31 0
  match op.io with
  | none =>
    let bad := w1.toNat % 2 ^ ns.lbads.toNat ≠ 0
    s.modEng core op fun o => { o with io := some (if bad then [] else io.data.take len, io.status) }
  | some (data, status) =>
    let l := ioLayout core (op.who core) data w2 w3 dpat
    if data.isEmpty || decide (l.count ≤ op.work.pos) then
      (if status ≠ 0 ∨ data.length < len then s.finishOp core op 0x05 op.work.sent status else s.finishOp core op 0 op.work.sent 0)
    else State.afterMove (s.movePiece core (op.who core) false l op.work (op.work.turn l.count (k % l.count)) (k / l.count)) core op (·.sent)

/-- A copy to memory (R212). -/
def State.moveCopy (s : State) (core : Nat) (op : EngOp) (l : Layout) (err : Bool) (k : Nat) : State :=
  if l.count ≤ op.work.pos then s.finishOp core op 0 op.work.read 0
  else State.afterMove (s.movePiece core (op.who core) err l op.work (op.work.turn l.count (k % l.count)) (k / l.count)) core op (·.read)

/-- A TPLANE (R176): once every block is written, its flags go to the slot that issued it, if its task is still there. -/
def State.movePlane (s : State) (core : Nat) (op : EngOp) (dst src scale ctl : Word) (p : Nat) (mode : RMode) (err : Bool) (k : Nat) : State :=
  let n := tpLines ctl * tpBlocks ctl
  if n ≤ op.work.pos then
    let s1 := if (s.slotAt core op.slot).st ≠ .empty ∧ (s.ctxAt core op.slot).tid = op.tid then
      s.modCtxAt core op.slot (·.raise op.flags) else s
    s1.finishOp core op 0 op.work.read 0
  else
    let r := s.moveBlock core (op.who core) err op dst src scale ctl p mode (op.work.turn n (k % n)) (k / n)
    match r.1 with
    | .on s x => s.modEng core op fun o => { o with work := x, flags := o.flags ||| r.2 }
    | .fail s x e => s.finishOp core op e x.read 0

/-- ENGINE_OPERATION_START: a unit takes the oldest command of the FIFO, and an entry frees (R209). -/
def execEngineOperationStart (core : Nat) (s : State) : Host.Outcome State Fault Refusal :=
  .next (match (s.coreAt core).engs.find? fun e => !e.started with
    | none => s
    | some op =>
      let s1 := s.modCore core fun c => { c with engs := c.engs.map fun o => if o.ecx == op.ecx && o.n == op.n then { o with started := true } else o }
      allSlots.foldl (fun s i => s.unpark core i false) s1)

/-- The element size of the port that a feed goes to, as a power of two; 8 bytes where none is bound. -/
def portSize (s : State) (core : Nat) (w1 : Word) : Nat :=
  (((s.ctxAt core (Fin.ofNat 16 (w1.toNat / 2 ^ 23))).portOf (Fin.ofNat 16 (w1.toNat / 2 ^ 27))).map (·.size)).getD 3

/-- Operation `j` of a core's list, at piece `k` mod the number of its pieces and by choice `k` / that number: a unit of the
piece is read or written, or the operation completes once all of them are done (R213, R289, R401). `io` is what the storage device returns; for another operation, a nonzero status says that
the piece at hand is uncorrectable (log 13). -/
def State.moveOp (s : State) (core j k : Nat) (io : IoReply) : State :=
  let err := io.status != 0
  match (s.coreAt core).engs[j]? with
  | none => s
  | some op =>
    if !op.started then s
    else match op.kind with
      | .copy w0 w1 w2 w3 dpat desc => match w3Dkind w3 with
        | 0 => s.moveCopy core op (copyLayout core (op.who core) w0 w1 w2 w3 dpat desc) err k
        | 1 => s.engFill core op w0 w1 err k
        | _ =>
          if op.work.pos * 2 ^ portSize s core w1 = w2.toNat then s.finishOp core op 0 w2.toNat 0
          else s.engFeed core op w0 w1 w2 err k
      | .plane dst src scale ctl p rnd => s.movePlane core op dst src scale ctl p (Rnd.ofBits rnd).mode err k
      | .io _ w1 w2 w3 dpat ns => s.moveIo core op w1 w2 w3 dpat ns io k

/-! ### Fabric reads of an engine (R212, R160, R161) -/

/-- The engine operation of a core with a fabric read that `f` accepts. -/
def Core.asking (c : Core) (f : EngAsk → Bool) : Option (EngOp × EngAsk) :=
  c.engs.findSome? fun o => (o.work.asks.find? f).map fun a => (o, a)

/-- The bytes that a peer has sent take their places in a piece. -/
def Piece.receive (p : Piece) (at_ : Nat) (l : List Byte) : Piece :=
  { p with got := p.got.mapIdx fun i w => if at_ ≤ i ∧ i < at_ + l.length then some ((l.getD (i - at_) 0).zeroExtend 64) else w }
/-- The answer to a fabric read (R160). -/
def Work.receive (x : Work) (a : EngAsk) (l : List Byte) : Work :=
  { x with
    asks := x.asks.filter fun b => b.rid != a.rid, read := x.read + a.len
    open_ := x.open_.map fun p => if p.k == a.k then p.receive a.at_ (l.take a.len) else p }

/-- A peer answers the fabric read of an engine: the data, or none with a status (R213, R214). -/
def State.engAnswer (s : State) (n : Nat) (f : EngAsk → Bool) (data : List Byte) (status : BitVec 8) : State :=
  match (s.coreAt n).asking f with
  | none => s
  | some (op, a) =>
    if status = 0 then s.modEng n op fun o => { o with work := o.work.receive a data }
    else s.finishOp n op status op.work.read 0

/-- A fabric read of an engine without a reply is sent again under a new number, three times at most (R161, R212). -/
def State.engResend (s : State) (n rid : Nat) : State := match (s.coreAt n).asking fun a => a.rid == rid with
  | none => s
  | some (op, a) =>
    if 3 ≤ a.resends then s.finishOp n op 0x06 op.work.read 0
    else if s.tagInUse n then s
    else
      let a' := { a with rid := s.seq, resends := a.resends + 1 }
      ((s.modEng n op fun o => { o with work := { o.work with asks := o.work.asks.map fun b => if b.rid == rid then a' else b } }).sendAsk n
        a').bump

/-- A peer is dead: the operations that read from it end (R161, R213). -/
def State.engDead (s : State) (n : Nat) (peer : BitVec 12) : State :=
  ((s.coreAt n).engs.filter fun o => o.work.asks.any fun a => a.peer == peer).foldl (fun s o => s.finishOp n o 0x06 o.work.read 0) s

/-- FABRIC_READ_RESEND: a fabric read without a reply for 1 ms is sent again under a new number, three times at most, and
then fails with CHANNEL; a reply to an earlier number finds no access (R161). The resend waits for a result tag (R348). `id` is the number of the access, or of the read of
an engine. -/
def execFabricReadResend (core slot id : Nat) (s : State) : Host.Outcome State Fault Refusal :=
  let i : Fin 16 := Fin.ofNat 16 slot
  .next (match (s.ctxAt core i).accs.find? fun a => a.id == id with
    | none => s.engResend core id
    | some a =>
      let again := ((s.modAcc core i id fun x => { x with resends := x.resends + 1, rid := s.seq }).sendFor core a.op s.seq).bump
      let go := if a.resends < 3 then (if s.tagInUse core then s else again) else s.failAcc core i a Cause.channel (a.fabAddr none)
      match a.op with
      | .loadG _ _ _ (.fab _ _) _ | .ask (.peer ..) => go
      | .loadV _ _ els _ => if els.any (fun e => match e.2 with | .fab _ _ => true | _ => false) then go else s
      | _ => s)

/-! ### The meanings: each instruction alone in its pair -/

/-- CpyqWt (R211, R27, R210, R313, R231, R402, R28, R209, R380, R212). -/
def execCpyqWt (a : GIx) (s : State) : Host.Outcome State Fault Refusal :=
  .next (issueOne (planCpyqWt a s) s)

/-- CpyqBz (R209, R212). -/
def execCpyqBz (p : PIx) (a : GIx) (s : State) : Host.Outcome State Fault Refusal :=
  .next (issueOne (planCpyqBz p a s) s)

/-- IordWt (R209, R231). -/
def execIordWt (a : GIx) (s : State) : Host.Outcome State Fault Refusal :=
  .next (issueOne (planIordWt a s) s)

/-- IordBz (R209, R231). -/
def execIordBz (p : PIx) (a : GIx) (s : State) : Host.Outcome State Fault Refusal :=
  .next (issueOne (planIordBz p a s) s)

/-- Tplane (R175, R176). -/
def execTplane (p : Fin 8) (d a b : GIx) (s : State) : Host.Outcome State Fault Refusal :=
  .next (issueOne (planTplane p d a b s) s)

/-- Wfm (R215, R29, R374). -/
def execWfm (d b : GIx) (s : State) : Host.Outcome State Fault Refusal :=
  .next (issueOne (planWfm d b s) s)

/-- Mbrd (R216). -/
def execMbrd (d b : GIx) (s : State) : Host.Outcome State Fault Refusal :=
  .next (issueOne (planMbrd d b s) s)

/-- Scnext (R232). -/
def execScnext (q : PIx) (d : GIx) (s : State) : Host.Outcome State Fault Refusal :=
  .next (issueOne (planScnext q d s) s)

end Sys2Proof.Machine
end

