-- ==== Sys2Proof/Decode.lean ====
section
/-! DEFINITION. The decoder and the encoder, from the formats and maps of R41 to R55, R70 to R75 and R238.
A word is a natural number below 2^32; a field [hi:lo] is the word divided by 2^lo, modulo its range. -/

namespace Sys2Proof

/-- `some i` when the check holds; otherwise the encoding is refused (R68). -/
def accept (ok : Bool) (i : Instr) : Option Instr := if ok then some i else none

/-- A g register or predicate number in bits [lo+3:lo]. -/
def reg4 (w lo : Nat) : Fin 16 := Fin.ofNat 16 (w / 2 ^ lo)
/-- A register number in a 3-bit field, or in the low three bits of a 4-bit one (R70). -/
def reg3 (w lo : Nat) : Fin 8 := Fin.ofNat 8 (w / 2 ^ lo)
/-- The field [lo+n-1:lo] as a number. -/
def fld (w lo n : Nat) : Nat := w / 2 ^ lo % 2 ^ n
/-- Bit `n` of a word. -/
def bitOf (w n : Nat) : Bool := w / 2 ^ n % 2 == 1

/-! ### Codes of the enumerations -/

def Size.code : Size → Nat
  | .b => 0 | .h => 1 | .w => 2 | .d => 3
def Size.ofCode (n : Nat) : Size := match n with
  | 0 => .b | 1 => .h | 2 => .w | _ => .d
def ASize.code : ASize → Nat
  | .w => 0 | .d => 1 | .wu => 2 | .du => 3
def ASize.ofCode (n : Nat) : ASize := match n with
  | 0 => .w | 1 => .d | 2 => .wu | _ => .du
def ESize.code : ESize → Nat
  | .w => 0 | .h => 1 | .b => 2
def ESize.ofCode? (n : Nat) : Option ESize := match n with
  | 0 => some .w | 1 => some .h | 2 => some .b | _ => none
def Scope.code : Scope → Nat
  | .core => 0 | .clu => 1 | .die => 2 | .dev => 3 | .fab => 4
def Scope.ofCode? (n : Nat) : Option Scope := match n with
  | 0 => some .core | 1 => some .clu | 2 => some .die | 3 => some .dev | 4 => some .fab | _ => none
def AOrder.code : AOrder → Nat
  | .rlx => 0 | .acq => 1 | .rel => 2 | .ar => 3
def AOrder.ofCode (n : Nat) : AOrder := match n with
  | 0 => .rlx | 1 => .acq | 2 => .rel | _ => .ar
def FOrder.code : FOrder → Nat
  | .acq => 1 | .rel => 2 | .ar => 3
def FOrder.ofCode? (n : Nat) : Option FOrder := match n with
  | 1 => some .acq | 2 => some .rel | 3 => some .ar | _ => none
def ObjKind.code : ObjKind → Nat
  | .flag => 0 | .counter => 1 | .barrier => 2 | .timeline => 3 | .release => 4 | .reduce => 5
def ObjKind.ofCode? (n : Nat) : Option ObjKind := match n with
  | 0 => some .flag | 1 => some .counter | 2 => some .barrier | 3 => some .timeline | 4 => some .release
  | 5 => some .reduce | _ => none
def RedOp.code : RedOp → Nat
  | .sum => 0 | .max => 1 | .min => 2 | .maxabs => 3
def RedOp.ofCode? (n : Nat) : Option RedOp := match n with
  | 0 => some .sum | 1 => some .max | 2 => some .min | 3 => some .maxabs | _ => none
def ICond.code : ICond → Nat
  | .eq => 0 | .ne => 1 | .lt => 2 | .ge => 3 | .ltu => 4 | .geu => 5
def ICond.ofCode? (n : Nat) : Option ICond := match n with
  | 0 => some .eq | 1 => some .ne | 2 => some .lt | 3 => some .ge | 4 => some .ltu | 5 => some .geu | _ => none
def FCond.code : FCond → Nat
  | .eq => 0 | .lt => 1 | .le => 2 | .un => 3 | .ne => 4
def FCond.ofCode? (n : Nat) : Option FCond := match n with
  | 0 => some .eq | 1 => some .lt | 2 => some .le | 3 => some .un | 4 => some .ne | _ => none
def FCvt.code : FCvt → Nat
  | .toI64 => 0 | .fromI64 => 1 | .toF32 => 2 | .fromF32 => 3 | .toI32 => 4 | .fromI32 => 5
def FCvt.ofCode? (n : Nat) : Option FCvt := match n with
  | 0 => some .toI64 | 1 => some .fromI64 | 2 => some .toF32 | 3 => some .fromF32 | 4 => some .toI32
  | 5 => some .fromI32 | _ => none
def FFmt.code : FFmt → Nat
  | .f32 => 0 | .f16 => 1 | .bf16 => 2
def FFmt.ofCode? (n : Nat) : Option FFmt := match n with
  | 0 => some .f32 | 1 => some .f16 | 2 => some .bf16 | _ => none
def SgnMode.code : SgnMode → Nat
  | .cpy => 0 | .neg => 1 | .xor => 2
def SgnMode.ofCode? (n : Nat) : Option SgnMode := match n with
  | 0 => some .cpy | 1 => some .neg | 2 => some .xor | _ => none
def VICond.code : VICond → Nat
  | .eq => 0 | .ne => 1 | .lt => 2 | .le => 3 | .ltu => 4 | .leu => 5
def VICond.ofCode? (n : Nat) : Option VICond := match n with
  | 0 => some .eq | 1 => some .ne | 2 => some .lt | 3 => some .le | 4 => some .ltu | 5 => some .leu | _ => none
def VFCond.code : VFCond → Nat
  | .eq => 0 | .ne => 1 | .lt => 2 | .le => 3 | .un => 6
def VFCond.ofCode? (n : Nat) : Option VFCond := match n with
  | 0 => some .eq | 1 => some .ne | 2 => some .lt | 3 => some .le | 6 => some .un | _ => none
def VCvt.code : VCvt → Nat
  | .f32f16 => 0 | .f32bf16 => 1 | .f32e5m2 => 2 | .f32e4m3 => 3 | .f32e2m1 => 4 | .f32i32 => 5 | .f32i8 => 6
  | .f16f32 => 7 | .bf16f32 => 8 | .e5m2f32 => 9 | .e4m3f32 => 10 | .e2m1f32 => 11 | .i32f32 => 12 | .i8f32 => 13
def VCvt.ofCode? (n : Nat) : Option VCvt := match n with
  | 0 => some .f32f16 | 1 => some .f32bf16 | 2 => some .f32e5m2 | 3 => some .f32e4m3 | 4 => some .f32e2m1
  | 5 => some .f32i32 | 6 => some .f32i8 | 7 => some .f16f32 | 8 => some .bf16f32 | 9 => some .e5m2f32
  | 10 => some .e4m3f32 | 11 => some .e2m1f32 | 12 => some .i32f32 | 13 => some .i8f32 | _ => none
/-- The element size a VCVT carries: that of its narrower side (R74). -/
def VCvt.esz : VCvt → Nat
  | .f32f16 | .f32bf16 | .f16f32 | .bf16f32 => 1
  | .f32e5m2 | .f32e4m3 | .f32e2m1 | .f32i8 | .e5m2f32 | .e4m3f32 | .e2m1f32 | .i8f32 => 2
  | .f32i32 | .i32f32 => 0
/-- esz and `.f` of a lane kind (R73): `.f` only with esz 00. -/
def Lane.code : Lane → Nat × Nat
  | .w => (0, 0) | .h => (1, 0) | .b => (2, 0) | .f => (0, 1)
def Lane.ofCode? (e f : Nat) : Option Lane := match e, f with
  | 0, 0 => some .w | 1, 0 => some .h | 2, 0 => some .b | 0, 1 => some .f | _, _ => none
def CCond.code : CCond → Nat
  | .eq => 0 | .ne => 1 | .lt => 2 | .ge => 3 | .ltu => 4 | .geu => 5 | .flt => 6 | .fle => 7
def CCond.ofCode (n : Nat) : CCond := match n with
  | 0 => .eq | 1 => .ne | 2 => .lt | 3 => .ge | 4 => .ltu | 5 => .geu | 6 => .flt | _ => .fle
def JCond.code : JCond → Nat
  | .always => 0 | .f => 1 | .nf => 2
def JCond.ofCode? (n : Nat) : Option JCond := match n with
  | 0 => some .always | 1 => some .f | 2 => some .nf | _ => none
def GetSel.code : GetSel → Nat
  | .e => 0 | .aux => 1 | .p n => n.val + 2
def GetSel.ofCode? (n : Nat) : Option GetSel := match n with
  | 0 => some .e | 1 => some .aux | n + 2 => if n < 8 then some (.p (Fin.ofNat 8 n)) else none
def PutSel.code : PutSel → Nat
  | .e => 0 | .aux => 1
def PutSel.ofCode? (n : Nat) : Option PutSel := match n with
  | 0 => some .e | 1 => some .aux | _ => none
/-- Control-register indices of R17 and R265. -/
def CReg.code : CReg → Nat
  | .rnd => 0x00 | .cmask => 0x01 | .sstat => 0x02 | .minrank => 0x03 | .tid => 0x04 | .rgn => 0x05 | .wch => 0x06
  | .ecxsel => 0x07 | .pc => 0x08 | .lm => 0x09 | .mode => 0x0A | .mfmt => 0x10 | .dpat => 0x11
  | .tline n => 0x12 + n.val | .mbstat => 0x16 | .wsphase => 0x17
  | .elsel => 0x20 | .elog => 0x21 | .wsfrz => 0x22 | .sampctl => 0x23 | .pcntclr => 0x24
def CReg.ofCode? (n : Nat) : Option CReg := match n with
  | 0x00 => some .rnd | 0x01 => some .cmask | 0x02 => some .sstat | 0x03 => some .minrank | 0x04 => some .tid
  | 0x05 => some .rgn | 0x06 => some .wch | 0x07 => some .ecxsel | 0x08 => some .pc | 0x09 => some .lm
  | 0x0A => some .mode | 0x10 => some .mfmt | 0x11 => some .dpat
  | 0x12 => some (.tline 0) | 0x13 => some (.tline 1) | 0x14 => some (.tline 2) | 0x15 => some (.tline 3)
  | 0x16 => some .mbstat | 0x17 => some .wsphase
  | 0x20 => some .elsel | 0x21 => some .elog | 0x22 => some .wsfrz | 0x23 => some .sampctl | 0x24 => some .pcntclr
  | _ => none

/-! ### The C word -/

/-- An atomic of format CA (R53, R71). -/
def decodeAtomic (maj op : Nat) : Option Instr :=
  match Scope.ofCode? (fld op 4 3) with
  | none => none
  | some sc =>
    let sz := ASize.ofCode (fld op 0 2)
    let o := AOrder.ofCode (fld op 2 2)
    let d := reg4 op 15
    let a := reg4 op 11
    let v := reg4 op 7
    match maj with
    | 0x10 => accept sz.signed (.aadd sz sc o d a v)
    | 0x11 => accept sz.signed (.aand sz sc o d a v)
    | 0x12 => accept sz.signed (.aor sz sc o d a v)
    | 0x13 => accept sz.signed (.axor sz sc o d a v)
    | 0x14 => some (.amin sz sc o d a v)
    | 0x15 => some (.amax sz sc o d a v)
    | 0x16 => accept sz.signed (.aswp sz sc o d a v)
    | 0x17 => accept (sz.signed && v.val != 15) (.acas sz sc o d a v)
    | 0x18 => accept (sz == .w) (.afadd sc o d a v)
    | _ => none

/-- CMAJ 0x3F: the system instructions (R71, R263). -/
def decodeSystem (op : Nat) : Option Instr :=
  let d := reg4 op 15
  let a := reg4 op 11
  let b := reg4 op 7
  match fld op 0 7 with
  | 0x00 => match CReg.ofCode? (fld op 7 7) with
    | some r => accept (fld op 14 1 == 0) (.crd d r)
    | none => none
  | 0x01 => match CReg.ofCode? (fld op 7 7) with
    | some r => accept (fld op 14 1 == 0) (.cwr d r)
    | none => none
  | 0x02 => some (.ctxrd d a b)
  | 0x03 => some (.ctxwr d a b)
  | 0x04 => accept (d == 0 && b == 0) (.resume a)
  | 0x05 => accept (d == 0 && b == 0) (.kill a)
  | 0x06 => accept (d == 0) (.tlbinv a b)
  | 0x07 => accept (a == 0 && b == 0) (.rdtime d)
  | 0x08 => accept (a == 0 && b == 0) (.rdcyc d)
  | 0x09 => accept (b == 0) (.pcnt d a)
  | _ => none

/-- LDVS, STVS, VGATH and VSCAT (R158, R159, R71): sub[0] picks the store, sub[2:1] is esz, sub[3] is X. -/
def decodeStrided (maj op : Nat) : Option Instr :=
  match ESize.ofCode? (fld op 1 2) with
  | none => none
  | some e =>
    let x := bitOf op 3
    let d := reg3 op 15
    let a := reg4 op 11
    let ok := fld op 4 3 == 0 && fld op 18 1 == 0
    if maj == 0x0D then
      accept ok (if bitOf op 0 then .stvs e x d a (reg4 op 7) else .ldvs e x d a (reg4 op 7))
    else
      accept (ok && fld op 10 1 == 0) (if bitOf op 0 then .vscat e x d a (reg3 op 7) else .vgath e x d a (reg3 op 7))

/-- A C instruction in its narrow form, from its major and its operand bits 18:0 (R52, R53, R71). -/
def decodeNarrow (maj op : Nat) : Option Instr :=
  let d := reg4 op 15
  let a := reg4 op 11
  let b := reg4 op 7
  let sub := fld op 0 7
  let sz := Size.ofCode (fld op 8 2)
  let x := bitOf op 10
  let off := BitVec.ofNat 8 op
  let vOk := fld op 18 1 == 0
  match maj with
  | 0x00 => accept (op == 0) .cnop
  | 0x01 => some (.br (BitVec.ofNat 19 op))
  | 0x02 => some (.call (BitVec.ofNat 19 op))
  | 0x03 => match sub with
    | 0 => accept (d == 0 && b == 0) (.jmp a)
    | 1 => accept (d == 0 && b == 0) (.callr a)
    | 2 => accept (d == 0 && a == 0 && b == 0) .ret
    | _ => none
  | 0x04 => match sub with
    | 0 => accept (d == 0 && fld op 7 8 == 0) .halt
    | 1 => accept (d == 0) (.trapi (BitVec.ofNat 8 (op / 2 ^ 7)))
    | 2 => accept (d == 0) (.syscall (BitVec.ofNat 8 (op / 2 ^ 7)))
    | _ => none
  | 0x08 => some (.ld sz x d a off)
  | 0x09 => accept (sz != .d) (.lds sz x d a off)
  | 0x0A => some (.st sz x d a off)
  | 0x0B => accept (vOk && sz == .d) (.ldv x (reg3 op 15) a off)
  | 0x0C => accept (vOk && sz == .d) (.stv x (reg3 op 15) a off)
  | 0x0D => decodeStrided 0x0D op
  | 0x0E => decodeStrided 0x0E op
  | 0x10 => decodeAtomic 0x10 op
  | 0x11 => decodeAtomic 0x11 op
  | 0x12 => decodeAtomic 0x12 op
  | 0x13 => decodeAtomic 0x13 op
  | 0x14 => decodeAtomic 0x14 op
  | 0x15 => decodeAtomic 0x15 op
  | 0x16 => decodeAtomic 0x16 op
  | 0x17 => decodeAtomic 0x17 op
  | 0x18 => decodeAtomic 0x18 op
  | 0x19 => match Scope.ofCode? (fld op 0 3), FOrder.ofCode? (fld op 3 2) with
    | some sc, some o => accept (fld op 5 14 == 0) (.fence sc o)
    | _, _ => none
  | 0x1A => match sub with
    | 0 => accept (b == 0 && isPortReg d) (.sbind d a)
    | 1 => accept (a == 0 && b == 0 && isPortReg d) (.sunbind d)
    | 2 => accept (b == 0 && isPortReg a) (.sstat d a)
    | _ => none
  | 0x1B => match sub with
    | 0 => accept vOk (.tld (reg3 op 15) a b)
    | 1 => accept vOk (.tldBd (reg3 op 15) a b)
    | _ => none
  | 0x1C => match sub with
    | 0 => accept vOk (.tst (reg3 op 15) a b)
    | 1 => accept vOk (.tstBd (reg3 op 15) a b)
    | _ => none
  | 0x1D => accept (fld op 3 4 == 0 && a.val != 15) (.tplane (Fin.ofNat 8 op) d a b)
  | 0x1E => match sub with
    | 0 => accept (d == 0) (.regput a b)
    | 1 => accept (a == 0 && b == 0) (.emptyr d)
    | _ => none
  | 0x20 => match ObjKind.ofCode? (fld op 0 4) with
    | some k => accept (fld op 4 3 == 0) (.obnew k d a b)
    | none => none
  | 0x21 => accept (sub == 0 && d == 0 && b == 0) (.oblige a)
  | 0x22 => accept (sub == 0 && d == 0) (.signal a b)
  | 0x23 => accept (sub == 0 && d == 0 && b == 0) (.arrive a)
  | 0x24 => match sub with
    | 0 => some (.wait d a b)
    | 1 => some (.waitSh d a b)
    | _ => none
  | 0x25 => accept (sub == 0 && b == 0) (.waita d a)
  | 0x26 => accept (sub == 0 && d == 0) (.xfer a b)
  | 0x27 => accept (sub == 0 && b == 0) (.obqry d a)
  | 0x28 => accept (sub == 0 && a == 0) (.rnkwin d b)
  | 0x29 => accept (d == 0 && fld op 8 3 == 0) (.poison a (BitVec.ofNat 8 op))
  | 0x2A => accept (d == 0 && a == 0 && fld op 2 5 == 0) (.tlwait (Fin.ofNat 4 op) b)
  | 0x2C => match sub with
    | 0 => accept (d == 0 && b == 0 && a.val ≤ 12) (.cpyqWt a)
    | 1 => accept (b == 0 && a.val ≤ 12) (.cpyqBz d a)
    | _ => none
  | 0x2D => accept (sub == 0 && a == 0) (.wfm d b)
  | 0x2E => accept (sub == 0 && a == 0 && d.val != 15) (.mbrd d b)
  | 0x2F => accept (fld op 4 3 == 0 && b.val + op % 8 ≤ 15 && (bitOf op 3 || d == 0))
      (if bitOf op 3 then .sendOb (Fin.ofNat 8 op) d a b else .send (Fin.ofNat 8 op) a b)
  | 0x30 => accept (sub == 0 && d == 0 && b == 0) (.migr a)
  | 0x31 => accept (sub == 0) (.shelve d a b)
  | 0x32 => accept (sub == 0) (.wcopen d a b)
  | 0x33 => accept (sub == 0 && d == 0 && b == 0) (.wcsel a)
  | 0x34 => match sub with
    | 0 => accept (b == 0) (.wcrel d a)
    | 1 => some (.wcrelRp d a b)
    | _ => none
  | 0x35 => accept (sub == 0 && d == 0 && b == 0) (.wcclose a)
  | 0x36 => accept (d == 0 && fld op 2 5 == 0) (.mcst (Fin.ofNat 4 op) a b)
  | 0x37 => match sub with
    | 0 => accept (b == 0) (.mcrel d a)
    | 1 => some (.mcrelRp d a b)
    | _ => none
  | 0x38 => match RedOp.ofCode? (fld op 0 4) with
    | some r => accept (fld op 5 2 == 0) (.redput r (bitOf op 4) d a b)
    | none => none
  | 0x39 => match sub with
    | 0 => accept (d == 0 && b == 0 && a.val ≤ 12) (.iordWt a)
    | 1 => accept (b == 0 && a.val ≤ 12) (.iordBz d a)
    | _ => none
  | 0x3A => accept (fld op 4 3 == 0 && a == 0 && b == 0) (.scnext (reg4 op 0) d)
  | 0x3B => accept (sub == 0 && b == 0) (.swdecl d a)
  | 0x3C => accept (sub == 0) (.swbind d a b)
  | 0x3D => accept (sub == 0 && d == 0) (.swrun a b)
  | 0x3E => match sub with
    | 0 => accept (d == 0) (.swwake a b)
    | 1 => accept (b == 0) (.swstat d a)
    | _ => none
  | 0x3F => decodeSystem op
  | _ => none

/-- A C instruction with L = 1 (R42): the wide forms take the literal, the others need it zero. -/
def decodeLone (maj op lit : Nat) : Option Instr :=
  let d := reg4 op 15
  let a := reg4 op 11
  let sz := Size.ofCode (fld op 8 2)
  let x := bitOf op 10
  let l := BitVec.ofNat 32 lit
  let offOk := fld op 0 8 == 0
  let vOk := fld op 18 1 == 0
  match maj with
  | 0x01 => accept (op == 0) (.brWide l)
  | 0x02 => accept (op == 0) (.callWide l)
  | 0x05 => accept (fld op 0 15 == 0) (.movl d l)
  | 0x06 => accept (fld op 0 15 == 0) (.movh d l)
  | 0x08 => accept offOk (.ldWide sz x d a l)
  | 0x09 => accept (offOk && sz != .d) (.ldsWide sz x d a l)
  | 0x0A => accept offOk (.stWide sz x d a l)
  | 0x0B => accept (offOk && vOk && sz == .d) (.ldvWide x (reg3 op 15) a l)
  | 0x0C => accept (offOk && vOk && sz == .d) (.stvWide x (reg3 op 15) a l)
  | m => if lit == 0 then decodeNarrow m op else none

/-- The C instruction of a pair: the C word and, when L = 1, the second word as its literal. -/
def decodeC (w lit : Nat) : Option Instr :=
  if bitOf w 31 then decodeLone (fld w 19 6) (fld w 0 19) lit else decodeNarrow (fld w 19 6) (fld w 0 19)

/-! ### The A word -/

/-- AMAJ 0x01 (R95). -/
def decodeAlu (op : Nat) : Option Instr :=
  let d := reg4 op 17
  let a := reg4 op 13
  let b := reg4 op 9
  match fld op 0 9 with
  | 0 => some (.add d a b) | 1 => some (.sub d a b) | 2 => some (.mul d a b) | 3 => some (.mulh d a b)
  | 4 => some (.mulhu d a b) | 5 => some (.div d a b) | 6 => some (.divu d a b) | 7 => some (.rem d a b)
  | 8 => some (.remu d a b) | 9 => some (.and d a b) | 10 => some (.or d a b) | 11 => some (.xor d a b)
  | 12 => some (.andn d a b) | 13 => some (.shl d a b) | 14 => some (.shr d a b) | 15 => some (.sra d a b)
  | 16 => some (.min d a b) | 17 => some (.max d a b) | 18 => some (.minu d a b) | 19 => some (.maxu d a b)
  | 20 => accept (b == 0) (.mov d a)
  | _ => none

/-- AMAJ 0x0F: predicates and the lane mask (R107). -/
def decodePred (op : Nat) : Option Instr :=
  let d := reg4 op 17
  let a := reg4 op 13
  let b := reg4 op 9
  match fld op 0 9 with
  | 0 => some (.pand d a b) | 1 => some (.por d a b) | 2 => some (.pxor d a b)
  | 3 => accept (b == 0) (.pnot d a)
  | 4 => accept (a == 0 && b == 0) (.pget d)
  | 5 => accept (d == 0 && b == 0) (.pset a)
  | 6 => accept (a == 0 && b == 0) (.lmget d)
  | 7 => accept (d == 0 && b == 0) (.lmset a)
  | _ => none

/-- AMAJ 0x10 to 0x13, format AF (R109 to R115). -/
def decodeFloat (maj op : Nat) : Option Instr :=
  match FFmt.ofCode? (fld op 3 2) with
  | none => none
  | some f =>
    let d := reg4 op 17
    let a := reg4 op 13
    let b := reg4 op 9
    let c := fld op 5 4
    let nz := fld op 0 3 == 0
    match maj with
    | 0x10 => match c with
      | 0 => accept nz (.fadd f d a b)
      | 1 => accept nz (.fsub f d a b)
      | 2 => accept nz (.fmul f d a b)
      | 3 => accept nz (.fmin f d a b)
      | 4 => accept nz (.fmax f d a b)
      | 5 => accept nz (.fdiv f d a b)
      | 6 => accept (nz && b == 0) (.fsqrt f d a)
      | 7 => match SgnMode.ofCode? (fld op 1 2) with
        | some m => accept (!bitOf op 0) (.fsgn f m d a b)
        | none => none
      | 8 => accept (nz && b == 0) (.fclass f d a)
      | _ => none
    | 0x11 => accept (!bitOf op 0 || c == 0)
        (.ffma f (bitOf op 2) (bitOf op 1) d a b (if bitOf op 0 then none else some (reg4 op 5)))
    | 0x12 => match FCond.ofCode? c with
      | some k => accept nz (.fcmp f k d a b)
      | none => none
    | 0x13 => match FCvt.ofCode? c with
      | some k => accept (nz && b == 0 && (f != .f32 || (k != .toF32 && k != .fromF32))) (.fcvt f k d a)
      | none => none
    | _ => none

/-- AMAJ 0x18: lane arithmetic and logic (R125). -/
def decodeLanes (op : Nat) : Option Instr :=
  let vd := reg3 op 18
  let va := reg3 op 15
  let vb := reg3 op 12
  let vc := reg3 op 9
  let m := bitOf op 6
  let fn := fld op 0 5
  match Lane.ofCode? (fld op 7 2) (fld op 5 1) with
  | none => none
  | some k =>
    match fn with
    | 0 => accept (vc == 0) (.vadd k m vd va vb)
    | 1 => accept (vc == 0) (.vsub k m vd va vb)
    | 2 => accept (vc == 0) (.vmul k m vd va vb)
    | 3 => accept (vc == 0) (.vmin k m vd va vb)
    | 4 => accept (vc == 0) (.vmax k m vd va vb)
    | 5 => accept (vb == 0 && vc == 0) (.vabs k m vd va)
    | 6 => accept (vb == 0 && vc == 0) (.vneg k m vd va)
    | fn =>
      match ESize.ofCode? (fld op 7 2) with
      | none => none
      | some e =>
        let int := !bitOf op 5
        match fn with
        | 7 => accept (int && vc == 0) (.vand e m vd va vb)
        | 8 => accept (int && vc == 0) (.vor e m vd va vb)
        | 9 => accept (int && vc == 0) (.vxor e m vd va vb)
        | 10 => accept (int && vc == 0) (.vshl e m vd va vb)
        | 11 => accept (int && vc == 0) (.vshr e m vd va vb)
        | 12 => accept (int && vc == 0) (.vsra e m vd va vb)
        | 13 => accept int (.vsel e m vd va vb vc)
        | 14 => accept (int && vb == 0 && vc == 0) (.vmov e m vd va)
        | _ => none

/-- AMAJ 0x19 to 0x20 (R73, R74, R126 to R135). -/
def decodeVector (maj op : Nat) : Option Instr :=
  let vd := reg3 op 18
  let va := reg3 op 15
  let vb := reg3 op 12
  let vc := reg3 op 9
  let esz := fld op 7 2
  let m := bitOf op 6
  let fn := fld op 0 6
  match maj with
  | 0x19 => accept (fn == 0x20 && esz == 0) (.vfma m vd va vb vc)
  | 0x1A => if vd == 0 && vc == 0 then
      if bitOf op 5 then
        match VFCond.ofCode? (fld op 0 5) with
        | some c => accept (esz == 0) (.vcmp (.flt c) m va vb)
        | none => none
      else
        match VICond.ofCode? (fld op 0 5), ESize.ofCode? esz with
        | some c, some e => some (.vcmp (.int e c) m va vb)
        | _, _ => none
    else none
  | 0x1B => match ESize.ofCode? (fld op 6 2) with
    | none => none
    | some e =>
      let lane := BitVec.ofNat 6 (op / 2 ^ 8)
      let g := reg4 op 14
      match fn with
      | 0 => accept (lane.toNat == 0) (.vbcast e vd g)
      | 1 => accept (decide (lane.toNat < e.lanes)) (.vext e g vd lane)
      | 2 => accept (decide (lane.toNat < e.lanes)) (.vins e vd g lane)
      | _ => none
  | 0x1C => match ESize.ofCode? esz with
    | some e => accept (fn == 0) (.vperm e m vd va vb vc)
    | none => none
  | 0x1D => if vb == 0 && vc == 0 then
      match fn with
      | 0x28 => accept (esz == 0) (.vamax false m vd va)
      | 0x29 => accept (esz == 0) (.vamax true m vd va)
      | _ => match Lane.ofCode? esz (fld op 5 1) with
        | none => none
        | some k => match fld op 0 5 with
          | 0 => some (.vred .sum k m vd va)
          | 1 => some (.vred .min k m vd va)
          | 2 => some (.vred .max k m vd va)
          | _ => none
    else none
  | 0x1E => if fn == 0x30 then accept (esz == 0 && vc == 0) (.vscale m vd va vb)
    else match VCvt.ofCode? (fld op 0 4) with
      | none => none
      | some c => accept (fld op 4 2 == 0 && esz == c.esz && !m && vc == 0 && decide (vb.val < c.fieldLimit))
          (.vcvt c vd va vb)
  -- R134 has VDOT read vc, and R73's last sentence counts vc as unread there: R134 is followed (DEDUCED, log 60).
  | 0x1F => if fn == 0x20 && esz == 0 && !m then some (.vdot true vd va vb vc)
    else accept (fn == 0 && esz == 2 && !m) (.vdot false vd va vb vc)
  | 0x20 => if esz == 0 && !m && vb == 0 && vc == 0 then
      match fn with
      | 0x20 => some (.vrcp vd va)
      | 0x21 => some (.vexp2 vd va)
      | _ => none
    else none
  | _ => none

/-- AMAJ 0x28 to 0x30, format AT (R72, R139 to R148). -/
def decodeTile (maj op : Nat) : Option Instr :=
  let td := reg3 op 18
  let a := reg4 op 14
  let b := reg4 op 10
  let c := fld op 6 4
  let fn := fld op 0 6
  let low := fld op 0 14
  let v := reg3 op 14
  let vOk := fld op 17 1 == 0
  match maj with
  | 0x28 => accept (low == 0) (.tcfg td a)
  | 0x29 => match fld op 0 18 with
    | 0 => some (.tzero td)
    | 1 => some (.trel td)
    | _ => none
  | 0x2A => accept (low == 0 && td == 0) (.mfmt a)
  | 0x2B => accept (c == 0 && fn == 0) (.mma td a b)
  | 0x2C => accept (c == 0 && fn == 0) (.mmai td a b)
  | 0x2D => match fld op 0 10 with
    | 0 => accept vOk (.trowr v td b)
    | 1 => accept vOk (.troww td v b)
    | _ => none
  | 0x2E => match fld op 0 10 with
    | 0 => accept vOk (.tcolr v td b)
    | 1 => accept vOk (.tcolw td v b)
    | _ => none
  | 0x2F => accept (low == 0) (.tstat a td)
  | 0x30 => accept (low == 0 && vOk) (.ttrans td v)
  | _ => none

/-- The A instruction of a pair, from its major and its operand bits 20:0 (R54, R55, R72). -/
def decodeAOp (maj op : Nat) : Option Instr :=
  let d := reg4 op 17
  let a := reg4 op 13
  let b := reg4 op 9
  let imm := BitVec.ofNat 13 op
  match maj with
  | 0x00 => accept (op == 0) .anop
  | 0x01 => decodeAlu op
  | 0x02 => some (.addi d a imm)
  | 0x03 => some (.andi d a imm)
  | 0x04 => some (.ori d a imm)
  | 0x05 => some (.xori d a imm)
  | 0x06 => match fld op 6 7 with
    | 0x00 => some (.shli d a (BitVec.ofNat 6 op))
    | 0x20 => some (.shri d a (BitVec.ofNat 6 op))
    | 0x40 => some (.srai d a (BitVec.ofNat 6 op))
    | _ => none
  | 0x07 => accept (a == 0) (.movi d imm)
  | 0x08 => some (.lea d a b (BitVec.ofNat 3 (op / 2 ^ 6)) (BitVec.ofNat 6 op))
  | 0x09 => match ICond.ofCode? (fld op 0 9) with
    | some c => some (.cmp c d a b)
    | none => none
  | 0x0A => match ICond.ofCode? (fld op 10 3) with
    | some c => some (.cmpi c d a (BitVec.ofNat 10 op))
    | none => none
  | 0x0B => if b == 0 then
      match fld op 0 3 with
      | 0 => accept (fld op 3 6 == 0) (.clz d a)
      | 1 => accept (fld op 3 6 == 0) (.ctz d a)
      | 2 => accept (fld op 3 6 == 0) (.popc d a)
      | 3 => some (.sext d a (BitVec.ofNat 6 (op / 2 ^ 3)))
      | 4 => some (.zext d a (BitVec.ofNat 6 (op / 2 ^ 3)))
      | _ => none
    else none
  | 0x0C => accept (decide (fld op 6 6 + fld op 0 6 ≤ 63))
      (.bfx (bitOf op 12) d a (BitVec.ofNat 6 (op / 2 ^ 6)) (BitVec.ofNat 6 op))
  | 0x0D => accept (decide (fld op 6 6 + fld op 0 6 ≤ 63) && !bitOf op 12)
      (.bfi d a (BitVec.ofNat 6 (op / 2 ^ 6)) (BitVec.ofNat 6 op))
  | 0x0E => accept (fld op 4 5 == 0) (.sel d a b (reg4 op 0))
  | 0x0F => decodePred op
  | 0x10 => decodeFloat 0x10 op
  | 0x11 => decodeFloat 0x11 op
  | 0x12 => decodeFloat 0x12 op
  | 0x13 => decodeFloat 0x13 op
  | 0x18 => decodeLanes op
  | 0x19 => decodeVector 0x19 op
  | 0x1A => decodeVector 0x1A op
  | 0x1B => decodeVector 0x1B op
  | 0x1C => decodeVector 0x1C op
  | 0x1D => decodeVector 0x1D op
  | 0x1E => decodeVector 0x1E op
  | 0x1F => decodeVector 0x1F op
  | 0x20 => decodeVector 0x20 op
  | 0x28 => decodeTile 0x28 op
  | 0x29 => decodeTile 0x29 op
  | 0x2A => decodeTile 0x2A op
  | 0x2B => decodeTile 0x2B op
  | 0x2C => decodeTile 0x2C op
  | 0x2D => decodeTile 0x2D op
  | 0x2E => decodeTile 0x2E op
  | 0x2F => decodeTile 0x2F op
  | 0x30 => decodeTile 0x30 op
  | _ => none

/-- The A instruction of a pair. -/
def decodeA (w : Nat) : Option Instr := decodeAOp (fld w 26 6) (fld w 0 21)

/-! ### Context words (R75, R238) -/

/-- Op2 of a context word: with I = 0 the register b and imm zero, with I = 1 the immediate and b zero (R238). -/
def decodeOp2 (op : Nat) : Option Op2 :=
  if bitOf op 19 then (if fld op 20 2 == 0 then some (.imm (BitVec.ofNat 16 op)) else none)
  else if fld op 0 16 == 0 then some (.reg (Fin.ofNat 4 (op / 2 ^ 20))) else none

/-- A context instruction from its cop and its bits 25:0 (R239 to R244). -/
def decodeXOp (cop op : Nat) : Option Instr :=
  let d : CIx := Fin.ofNat 4 (op / 2 ^ 24)
  let a : CIx := Fin.ofNat 4 (op / 2 ^ 22)
  let noCond := fld op 16 3 == 0
  /- the three-operand shape: d, a, Op2 and no condition -/
  let three (f : CIx → CIx → Op2 → Instr) : Option Instr := match decodeOp2 op with
    | some o => accept noCond (f d a o)
    | none => none
  match cop with
  | 0x00 => accept (op == 0) .ctxCnop
  | 0x01 => match decodeOp2 op with
    | some o => accept (noCond && a == 0) (.cmov d o)
    | none => none
  | 0x02 => accept (fld op 0 24 == 0) (.cidx d)
  | 0x03 => match GetSel.ofCode? (fld op 0 4) with
    | some s => accept (fld op 4 20 == 0) (.cget d s)
    | none => none
  | 0x04 => match PutSel.ofCode? (fld op 0 4) with
    | some s => accept (fld op 4 18 == 0 && d == 0) (.cput s a)
    | none => none
  | 0x08 => three .cadd
  | 0x09 => three .csub
  | 0x0A => three .cmul
  | 0x0B => three .cand
  | 0x0C => three .cor
  | 0x0D => three .cshl
  | 0x0E => three .cshr
  | 0x0F => three .cmin
  | 0x10 => three .cmax
  | 0x14 => three .cfadd
  | 0x15 => three .cfmul
  | 0x16 => three .cfmax
  | 0x18 => match decodeOp2 op with
    | some o => accept (d == 0) (.ccmp (CCond.ofCode (fld op 16 3)) a o)
    | none => none
  | 0x19 => match JCond.ofCode? (fld op 16 3) with
    | some c => accept (fld op 19 7 == 0 && fld op 6 10 == 0) (.cjmp c (BitVec.ofNat 6 op))
    | none => none
  | 0x1C => match decodeOp2 op with
    | some o => accept (noCond && a == 0) (.cnb d o)
    | none => none
  | 0x1D => accept (fld op 0 24 == 0) (.cin d)
  | 0x1E => accept (fld op 0 22 == 0 && d == 0) (.cout a)
  | 0x20 => accept (fld op 6 16 == 0 && d == 0) (.cwe a (BitVec.ofNat 6 op))
  | 0x21 => accept (fld op 4 22 == 0) (.cws (reg4 op 0))
  | 0x22 => match decodeOp2 op with
    | some o => accept (noCond && a == 0 && d == 0) (.cww o)
    | none => none
  | 0x28 => accept (fld op 2 24 == 0) (.csig (Fin.ofNat 4 op))
  | 0x29 => accept (op == 0) .cdone
  | 0x2A => accept (fld op 8 18 == 0 && decide (fld op 0 8 < 0xF0)) (.cflt (BitVec.ofNat 8 op))
  | _ => none

/-- A context instruction word. -/
def decodeX (w : Nat) : Option Instr := decodeXOp (fld w 26 6) (fld w 0 26)

/-! ### Pairs -/

/-- A register, predicate or other resource that a slot names as a destination (R48). -/
inductive Dest
  | g (r : GIx) | v (r : VIx) | p (r : PIx) | lm | t (r : TIx) | cr (code : Nat)
  deriving DecidableEq, Repr

/-- Every predicate p1 to p15, which PSET writes (R107). -/
def allPreds : List Dest := (List.range 15).map fun k => .p (Fin.ofNat 16 (k + 1))

/-- A predicate as a destination: a write to p0 takes part in no conflict (R48). -/
def predDest (p : PIx) : List Dest := if p == 0 then [] else [.p p]

/-- The destinations that an instruction's encoding names (R48). -/
def Instr.dests : Instr → List Dest
  | .call _ | .callWide _ | .callr _ => [.g 8]
  | .movl d _ | .movh d _ => [.g d]
  | .ld _ _ d _ _ | .ldWide _ _ d _ _ | .lds _ _ d _ _ | .ldsWide _ _ d _ _ => [.g d]
  | .ldv _ d _ _ | .ldvWide _ d _ _ | .ldvs _ _ d _ _ | .vgath _ _ d _ _ => [.v d]
  | .aadd _ _ _ d _ _ | .aand _ _ _ d _ _ | .aor _ _ _ d _ _ | .axor _ _ _ d _ _ | .amin _ _ _ d _ _
  | .amax _ _ _ d _ _ | .aswp _ _ _ d _ _ | .acas _ _ _ d _ _ | .afadd _ _ d _ _ => [.g d]
  | .sbind d _ | .sunbind d | .sstat d _ | .emptyr d => [.g d]
  | .tld td _ _ | .tldBd td _ _ => [.t td]
  | .obnew _ d _ _ | .wait d _ _ | .waitSh d _ _ | .waita d _ | .obqry d _ | .rnkwin d _ | .wfm d _ => [.g d]
  | .cpyqWt a | .iordWt a => [.g (Fin.ofNat 16 (a.val + 3))]
  | .cpyqBz p a | .iordBz p a => .g (Fin.ofNat 16 (a.val + 3)) :: predDest p
  | .mbrd d _ => [.g d, .g (Fin.ofNat 16 (d.val + 1))]
  | .shelve d _ _ | .wcopen d _ _ | .wcrel d _ | .wcrelRp d _ _ | .mcrel d _ | .mcrelRp d _ _
  | .redput _ _ d _ _ => [.g d]
  | .scnext q d => .g d :: predDest q
  | .swdecl d _ | .swstat d _ | .crd d _ | .ctxrd d _ _ | .rdtime d | .rdcyc d | .pcnt d _ => [.g d]
  | .cwr _ r => if r == .lm then [.lm] else [.cr r.code]
  | .add d _ _ | .sub d _ _ | .mul d _ _ | .mulh d _ _ | .mulhu d _ _ | .div d _ _ | .divu d _ _ | .rem d _ _
  | .remu d _ _ | .and d _ _ | .or d _ _ | .xor d _ _ | .andn d _ _ | .shl d _ _ | .shr d _ _ | .sra d _ _
  | .min d _ _ | .max d _ _ | .minu d _ _ | .maxu d _ _ | .mov d _ | .addi d _ _ | .andi d _ _ | .ori d _ _
  | .xori d _ _ | .shli d _ _ | .shri d _ _ | .srai d _ _ | .movi d _ | .lea d _ _ _ _ => [.g d]
  | .cmp _ d _ _ | .cmpi _ d _ _ | .fcmp _ _ d _ _ | .pand d _ _ | .por d _ _ | .pxor d _ _ | .pnot d _ => predDest d
  | .clz d _ | .ctz d _ | .popc d _ | .sext d _ _ | .zext d _ _ | .bfx _ d _ _ _ | .bfi d _ _ _ | .sel d _ _ _
  | .pget d | .lmget d => [.g d]
  | .pset _ => allPreds
  | .lmset _ | .vcmp .. => [.lm]
  | .fadd _ d _ _ | .fsub _ d _ _ | .fmul _ d _ _ | .fmin _ d _ _ | .fmax _ d _ _ | .fdiv _ d _ _ | .fsqrt _ d _
  | .fsgn _ _ d _ _ | .fclass _ d _ | .ffma _ _ _ d _ _ _ | .fcvt _ _ d _ => [.g d]
  | .vadd _ _ d _ _ | .vsub _ _ d _ _ | .vmul _ _ d _ _ | .vmin _ _ d _ _ | .vmax _ _ d _ _ | .vabs _ _ d _
  | .vneg _ _ d _ | .vand _ _ d _ _ | .vor _ _ d _ _ | .vxor _ _ d _ _ | .vshl _ _ d _ _ | .vshr _ _ d _ _
  | .vsra _ _ d _ _ | .vsel _ _ d _ _ _ | .vmov _ _ d _ | .vfma _ d _ _ _ => [.v d]
  | .vbcast _ d _ | .vins _ d _ _ | .vperm _ _ d _ _ _ | .vred _ _ _ d _ | .vamax _ _ d _ | .vcvt _ d _ _
  | .vscale _ d _ _ | .vdot _ d _ _ _ | .vrcp d _ | .vexp2 d _ => [.v d]
  | .vext _ g _ _ => [.g g]
  | .tcfg td _ | .tzero td | .trel td | .mma td _ _ | .mmai td _ _ | .troww td _ _ | .tcolw td _ _
  | .ttrans td _ => [.t td]
  | .trowr v _ _ | .tcolr v _ _ => [.v v]
  | .tstat a _ => [.g a]
  | .mfmt _ => [.cr 0x10]
  | _ => []

/-- Pair conflict (R48): both slots name one destination. -/
def pairConflict (c a : Instr) : Bool := c.dests.any fun d => a.dests.contains d

/-- A pair from its two words, C word first; `none` is an encoding fault (R68). -/
def decodePair (cw aw : Nat) : Option Pair :=
  match decodeC cw aw with
  | none => none
  | some ci =>
    let cs : SlotInstr := ⟨reg4 cw 26, bitOf cw 25, ci⟩
    if bitOf cw 31 then some ⟨bitOf cw 30, cs, ⟨0, false, .anop⟩⟩
    else match decodeA aw with
      | none => none
      | some ai =>
        if pairConflict ci ai then none
        else some ⟨bitOf cw 30, cs, ⟨reg4 aw 22, bitOf aw 21, ai⟩⟩

/-! ### The encoder -/

/-- The fields of format CR and CS (R52). -/
def packCS (maj : Nat) (d a b : Nat) (sub : Nat) : Nat := maj * 2 ^ 19 + d * 2 ^ 15 + a * 2 ^ 11 + b * 2 ^ 7 + sub
/-- The fields of format CM (R52). -/
def packCM (maj d a : Nat) (x : Bool) (sz off : Nat) : Nat :=
  maj * 2 ^ 19 + d * 2 ^ 15 + a * 2 ^ 11 + x.toNat * 2 ^ 10 + sz * 2 ^ 8 + off
/-- The fields of format CA (R52). -/
def packCA (maj : Nat) (sz : Nat) (sc : Scope) (o : AOrder) (d a v : GIx) : Nat :=
  maj * 2 ^ 19 + d.val * 2 ^ 15 + a.val * 2 ^ 11 + v.val * 2 ^ 7 + sc.code * 2 ^ 4 + o.code * 2 ^ 2 + sz
/-- The lone bit L (R42). -/
def lone : Nat := 2 ^ 31
/-- The sub field of the strided and indexed forms (R158). -/
def packStrided (st : Bool) (e : ESize) (x : Bool) : Nat := st.toNat + e.code * 2 + x.toNat * 8

/-- The C word, with S, PI and PN zero, and the second word when L = 1, of a C instruction. -/
def encodeC : Instr → Option (Nat × Nat)
  | .cnop => some (0, 0)
  | .br off => some (0x01 * 2 ^ 19 + off.toNat, 0)
  | .brWide l => some (lone + 0x01 * 2 ^ 19, l.toNat)
  | .call off => some (0x02 * 2 ^ 19 + off.toNat, 0)
  | .callWide l => some (lone + 0x02 * 2 ^ 19, l.toNat)
  | .jmp a => some (packCS 0x03 0 a 0 0, 0)
  | .callr a => some (packCS 0x03 0 a 0 1, 0)
  | .ret => some (packCS 0x03 0 0 0 2, 0)
  | .halt => some (packCS 0x04 0 0 0 0, 0)
  | .trapi c => some (0x04 * 2 ^ 19 + c.toNat * 2 ^ 7 + 1, 0)
  | .syscall c => some (0x04 * 2 ^ 19 + c.toNat * 2 ^ 7 + 2, 0)
  | .movl d l => some (lone + packCS 0x05 d 0 0 0, l.toNat)
  | .movh d l => some (lone + packCS 0x06 d 0 0 0, l.toNat)
  | .ld sz x d a off => some (packCM 0x08 d a x sz.code off.toNat, 0)
  | .ldWide sz x d a l => some (lone + packCM 0x08 d a x sz.code 0, l.toNat)
  | .lds sz x d a off => some (packCM 0x09 d a x sz.code off.toNat, 0)
  | .ldsWide sz x d a l => some (lone + packCM 0x09 d a x sz.code 0, l.toNat)
  | .st sz x d a off => some (packCM 0x0A d a x sz.code off.toNat, 0)
  | .stWide sz x d a l => some (lone + packCM 0x0A d a x sz.code 0, l.toNat)
  | .ldv x d a off => some (packCM 0x0B d a x 3 off.toNat, 0)
  | .ldvWide x d a l => some (lone + packCM 0x0B d a x 3 0, l.toNat)
  | .stv x d a off => some (packCM 0x0C d a x 3 off.toNat, 0)
  | .stvWide x d a l => some (lone + packCM 0x0C d a x 3 0, l.toNat)
  | .ldvs e x d a b => some (packCS 0x0D d a b (packStrided false e x), 0)
  | .stvs e x d a b => some (packCS 0x0D d a b (packStrided true e x), 0)
  | .vgath e x d a b => some (packCS 0x0E d a b (packStrided false e x), 0)
  | .vscat e x d a b => some (packCS 0x0E d a b (packStrided true e x), 0)
  | .aadd sz sc o d a v => some (packCA 0x10 sz.code sc o d a v, 0)
  | .aand sz sc o d a v => some (packCA 0x11 sz.code sc o d a v, 0)
  | .aor sz sc o d a v => some (packCA 0x12 sz.code sc o d a v, 0)
  | .axor sz sc o d a v => some (packCA 0x13 sz.code sc o d a v, 0)
  | .amin sz sc o d a v => some (packCA 0x14 sz.code sc o d a v, 0)
  | .amax sz sc o d a v => some (packCA 0x15 sz.code sc o d a v, 0)
  | .aswp sz sc o d a v => some (packCA 0x16 sz.code sc o d a v, 0)
  | .acas sz sc o d a v => some (packCA 0x17 sz.code sc o d a v, 0)
  | .afadd sc o d a v => some (packCA 0x18 0 sc o d a v, 0)
  | .fence sc o => some (0x19 * 2 ^ 19 + o.code * 2 ^ 3 + sc.code, 0)
  | .sbind d a => some (packCS 0x1A d a 0 0, 0)
  | .sunbind d => some (packCS 0x1A d 0 0 1, 0)
  | .sstat d a => some (packCS 0x1A d a 0 2, 0)
  | .tld td a b => some (packCS 0x1B td a b 0, 0)
  | .tldBd td a b => some (packCS 0x1B td a b 1, 0)
  | .tst td a b => some (packCS 0x1C td a b 0, 0)
  | .tstBd td a b => some (packCS 0x1C td a b 1, 0)
  | .tplane p d a b => some (packCS 0x1D d a b p, 0)
  | .regput a b => some (packCS 0x1E 0 a b 0, 0)
  | .emptyr d => some (packCS 0x1E d 0 0 1, 0)
  | .obnew k d a b => some (packCS 0x20 d a b k.code, 0)
  | .oblige a => some (packCS 0x21 0 a 0 0, 0)
  | .signal a b => some (packCS 0x22 0 a b 0, 0)
  | .arrive a => some (packCS 0x23 0 a 0 0, 0)
  | .wait d a b => some (packCS 0x24 d a b 0, 0)
  | .waitSh d a b => some (packCS 0x24 d a b 1, 0)
  | .waita d a => some (packCS 0x25 d a 0 0, 0)
  | .xfer a b => some (packCS 0x26 0 a b 0, 0)
  | .obqry d a => some (packCS 0x27 d a 0 0, 0)
  | .rnkwin d b => some (packCS 0x28 d 0 b 0, 0)
  | .poison a c => some (0x29 * 2 ^ 19 + a.val * 2 ^ 11 + c.toNat, 0)
  | .tlwait e b => some (packCS 0x2A 0 0 b e, 0)
  | .cpyqWt a => some (packCS 0x2C 0 a 0 0, 0)
  | .cpyqBz p a => some (packCS 0x2C p a 0 1, 0)
  | .wfm d b => some (packCS 0x2D d 0 b 0, 0)
  | .mbrd d b => some (packCS 0x2E d 0 b 0, 0)
  | .send n a b => some (packCS 0x2F 0 a b n, 0)
  | .sendOb n d a b => some (packCS 0x2F d a b (8 + n), 0)
  | .migr a => some (packCS 0x30 0 a 0 0, 0)
  | .shelve d a b => some (packCS 0x31 d a b 0, 0)
  | .wcopen d a b => some (packCS 0x32 d a b 0, 0)
  | .wcsel a => some (packCS 0x33 0 a 0 0, 0)
  | .wcrel d a => some (packCS 0x34 d a 0 0, 0)
  | .wcrelRp d a b => some (packCS 0x34 d a b 1, 0)
  | .wcclose a => some (packCS 0x35 0 a 0 0, 0)
  | .mcst n a b => some (packCS 0x36 0 a b n, 0)
  | .mcrel d a => some (packCS 0x37 d a 0 0, 0)
  | .mcrelRp d a b => some (packCS 0x37 d a b 1, 0)
  | .redput op ign d a b => some (packCS 0x38 d a b (op.code + ign.toNat * 16), 0)
  | .iordWt a => some (packCS 0x39 0 a 0 0, 0)
  | .iordBz p a => some (packCS 0x39 p a 0 1, 0)
  | .scnext q d => some (packCS 0x3A d 0 0 q, 0)
  | .swdecl d a => some (packCS 0x3B d a 0 0, 0)
  | .swbind d a b => some (packCS 0x3C d a b 0, 0)
  | .swrun a b => some (packCS 0x3D 0 a b 0, 0)
  | .swwake a b => some (packCS 0x3E 0 a b 0, 0)
  | .swstat d a => some (packCS 0x3E d a 0 1, 0)
  | .crd d r => some (0x3F * 2 ^ 19 + d.val * 2 ^ 15 + r.code * 2 ^ 7, 0)
  | .cwr d r => some (0x3F * 2 ^ 19 + d.val * 2 ^ 15 + r.code * 2 ^ 7 + 1, 0)
  | .ctxrd d a b => some (packCS 0x3F d a b 2, 0)
  | .ctxwr d a b => some (packCS 0x3F d a b 3, 0)
  | .resume a => some (packCS 0x3F 0 a 0 4, 0)
  | .kill a => some (packCS 0x3F 0 a 0 5, 0)
  | .tlbinv a b => some (packCS 0x3F 0 a b 6, 0)
  | .rdtime d => some (packCS 0x3F d 0 0 7, 0)
  | .rdcyc d => some (packCS 0x3F d 0 0 8, 0)
  | .pcnt d a => some (packCS 0x3F d a 0 9, 0)
  | _ => none

/-- Format AR (R54). -/
def packAR (maj d a b fn : Nat) : Nat := maj * 2 ^ 26 + d * 2 ^ 17 + a * 2 ^ 13 + b * 2 ^ 9 + fn
/-- Format AI (R54). -/
def packAI (maj d a imm : Nat) : Nat := maj * 2 ^ 26 + d * 2 ^ 17 + a * 2 ^ 13 + imm
/-- Format AV (R54). -/
def packAV (maj : Nat) (vd va vb vc : Nat) (esz : Nat) (m : Bool) (fn : Nat) : Nat :=
  maj * 2 ^ 26 + vd * 2 ^ 18 + va * 2 ^ 15 + vb * 2 ^ 12 + vc * 2 ^ 9 + esz * 2 ^ 7 + m.toNat * 2 ^ 6 + fn
/-- Format AV with a lane kind (R73). -/
def packLane (maj : Nat) (k : Lane) (m : Bool) (vd va vb : Nat) (fn : Nat) : Nat :=
  packAV maj vd va vb 0 k.code.1 m (k.code.2 * 32 + fn)
/-- Format AX (R54). -/
def packAX (maj vd g lane esz fn : Nat) : Nat := maj * 2 ^ 26 + vd * 2 ^ 18 + g * 2 ^ 14 + lane * 2 ^ 8 + esz * 2 ^ 6 + fn
/-- Format AT (R54). -/
def packAT (maj td a b fn : Nat) : Nat := maj * 2 ^ 26 + td * 2 ^ 18 + a * 2 ^ 14 + b * 2 ^ 10 + fn
/-- Format AF (R54). -/
def packAF (maj : Nat) (f : FFmt) (d a b c : Nat) (low : Nat) : Nat :=
  maj * 2 ^ 26 + d * 2 ^ 17 + a * 2 ^ 13 + b * 2 ^ 9 + c * 2 ^ 5 + f.code * 2 ^ 3 + low

/-- The A word, with PI and PN zero, of an A instruction. -/
def encodeA : Instr → Option Nat
  | .anop => some 0
  | .add d a b => some (packAR 0x01 d a b 0)
  | .sub d a b => some (packAR 0x01 d a b 1)
  | .mul d a b => some (packAR 0x01 d a b 2)
  | .mulh d a b => some (packAR 0x01 d a b 3)
  | .mulhu d a b => some (packAR 0x01 d a b 4)
  | .div d a b => some (packAR 0x01 d a b 5)
  | .divu d a b => some (packAR 0x01 d a b 6)
  | .rem d a b => some (packAR 0x01 d a b 7)
  | .remu d a b => some (packAR 0x01 d a b 8)
  | .and d a b => some (packAR 0x01 d a b 9)
  | .or d a b => some (packAR 0x01 d a b 10)
  | .xor d a b => some (packAR 0x01 d a b 11)
  | .andn d a b => some (packAR 0x01 d a b 12)
  | .shl d a b => some (packAR 0x01 d a b 13)
  | .shr d a b => some (packAR 0x01 d a b 14)
  | .sra d a b => some (packAR 0x01 d a b 15)
  | .min d a b => some (packAR 0x01 d a b 16)
  | .max d a b => some (packAR 0x01 d a b 17)
  | .minu d a b => some (packAR 0x01 d a b 18)
  | .maxu d a b => some (packAR 0x01 d a b 19)
  | .mov d a => some (packAR 0x01 d a 0 20)
  | .addi d a imm => some (packAI 0x02 d a imm.toNat)
  | .andi d a imm => some (packAI 0x03 d a imm.toNat)
  | .ori d a imm => some (packAI 0x04 d a imm.toNat)
  | .xori d a imm => some (packAI 0x05 d a imm.toNat)
  | .shli d a sh => some (packAI 0x06 d a sh.toNat)
  | .shri d a sh => some (packAI 0x06 d a (0x800 + sh.toNat))
  | .srai d a sh => some (packAI 0x06 d a (0x1000 + sh.toNat))
  | .movi d imm => some (packAI 0x07 d 0 imm.toNat)
  | .lea d a b s imm => some (packAR 0x08 d a b (s.toNat * 64 + imm.toNat))
  | .cmp c d a b => some (packAR 0x09 d a b c.code)
  | .cmpi c d a imm => some (packAI 0x0A d a (c.code * 2 ^ 10 + imm.toNat))
  | .clz d a => some (packAR 0x0B d a 0 0)
  | .ctz d a => some (packAR 0x0B d a 0 1)
  | .popc d a => some (packAR 0x0B d a 0 2)
  | .sext d a w => some (packAR 0x0B d a 0 (w.toNat * 8 + 3))
  | .zext d a w => some (packAR 0x0B d a 0 (w.toNat * 8 + 4))
  | .bfx sx d a q n => some (packAI 0x0C d a (sx.toNat * 2 ^ 12 + q.toNat * 64 + n.toNat))
  | .bfi d a q n => some (packAI 0x0D d a (q.toNat * 64 + n.toNat))
  | .sel d a b p => some (packAR 0x0E d a b p)
  | .pand d a b => some (packAR 0x0F d a b 0)
  | .por d a b => some (packAR 0x0F d a b 1)
  | .pxor d a b => some (packAR 0x0F d a b 2)
  | .pnot d a => some (packAR 0x0F d a 0 3)
  | .pget d => some (packAR 0x0F d 0 0 4)
  | .pset a => some (packAR 0x0F 0 a 0 5)
  | .lmget d => some (packAR 0x0F d 0 0 6)
  | .lmset a => some (packAR 0x0F 0 a 0 7)
  | .fadd f d a b => some (packAF 0x10 f d a b 0 0)
  | .fsub f d a b => some (packAF 0x10 f d a b 1 0)
  | .fmul f d a b => some (packAF 0x10 f d a b 2 0)
  | .fmin f d a b => some (packAF 0x10 f d a b 3 0)
  | .fmax f d a b => some (packAF 0x10 f d a b 4 0)
  | .fdiv f d a b => some (packAF 0x10 f d a b 5 0)
  | .fsqrt f d a => some (packAF 0x10 f d a 0 6 0)
  | .fsgn f m d a b => some (packAF 0x10 f d a b 7 (m.code * 2))
  | .fclass f d a => some (packAF 0x10 f d a 0 8 0)
  | .ffma f np na d a b c => some (packAF 0x11 f d a b (match c with | some c => c.val | none => 0)
      (np.toNat * 4 + na.toNat * 2 + (match c with | some _ => 0 | none => 1)))
  | .fcmp f c d a b => some (packAF 0x12 f d a b c.code 0)
  | .fcvt f c d a => some (packAF 0x13 f d a 0 c.code 0)
  | .vadd k m vd va vb => some (packLane 0x18 k m vd va vb 0)
  | .vsub k m vd va vb => some (packLane 0x18 k m vd va vb 1)
  | .vmul k m vd va vb => some (packLane 0x18 k m vd va vb 2)
  | .vmin k m vd va vb => some (packLane 0x18 k m vd va vb 3)
  | .vmax k m vd va vb => some (packLane 0x18 k m vd va vb 4)
  | .vabs k m vd va => some (packLane 0x18 k m vd va 0 5)
  | .vneg k m vd va => some (packLane 0x18 k m vd va 0 6)
  | .vand e m vd va vb => some (packAV 0x18 vd va vb 0 e.code m 7)
  | .vor e m vd va vb => some (packAV 0x18 vd va vb 0 e.code m 8)
  | .vxor e m vd va vb => some (packAV 0x18 vd va vb 0 e.code m 9)
  | .vshl e m vd va vb => some (packAV 0x18 vd va vb 0 e.code m 10)
  | .vshr e m vd va vb => some (packAV 0x18 vd va vb 0 e.code m 11)
  | .vsra e m vd va vb => some (packAV 0x18 vd va vb 0 e.code m 12)
  | .vsel e m vd va vb vc => some (packAV 0x18 vd va vb vc e.code m 13)
  | .vmov e m vd va => some (packAV 0x18 vd va 0 0 e.code m 14)
  | .vfma m vd va vb vc => some (packAV 0x19 vd va vb vc 0 m 0x20)
  | .vcmp (.int e c) m va vb => some (packAV 0x1A 0 va vb 0 e.code m c.code)
  | .vcmp (.flt c) m va vb => some (packAV 0x1A 0 va vb 0 0 m (0x20 + c.code))
  | .vbcast e vd g => some (packAX 0x1B vd g 0 e.code 0)
  | .vext e g vd lane => some (packAX 0x1B vd g lane.toNat e.code 1)
  | .vins e vd g lane => some (packAX 0x1B vd g lane.toNat e.code 2)
  | .vperm e m vd va vb vc => some (packAV 0x1C vd va vb vc e.code m 0)
  | .vred .sum k m vd va => some (packLane 0x1D k m vd va 0 0)
  | .vred .min k m vd va => some (packLane 0x1D k m vd va 0 1)
  | .vred .max k m vd va => some (packLane 0x1D k m vd va 0 2)
  | .vamax ign m vd va => some (packAV 0x1D vd va 0 0 0 m (0x28 + ign.toNat))
  | .vcvt c vd va x => some (packAV 0x1E vd va x 0 c.esz false c.code)
  | .vscale m vd va vb => some (packAV 0x1E vd va vb 0 0 m 0x30)
  | .vdot true vd va vb vc => some (packAV 0x1F vd va vb vc 0 false 0x20)
  | .vdot false vd va vb vc => some (packAV 0x1F vd va vb vc 2 false 0)
  | .vrcp vd va => some (packAV 0x20 vd va 0 0 0 false 0x20)
  | .vexp2 vd va => some (packAV 0x20 vd va 0 0 0 false 0x21)
  | .tcfg td a => some (packAT 0x28 td a 0 0)
  | .tzero td => some (packAT 0x29 td 0 0 0)
  | .trel td => some (packAT 0x29 td 0 0 1)
  | .mfmt a => some (packAT 0x2A 0 a 0 0)
  | .mma td a b => some (packAT 0x2B td a b 0)
  | .mmai td a b => some (packAT 0x2C td a b 0)
  | .trowr v td b => some (packAT 0x2D td v b 0)
  | .troww td v b => some (packAT 0x2D td v b 1)
  | .tcolr v td b => some (packAT 0x2E td v b 0)
  | .tcolw td v b => some (packAT 0x2E td v b 1)
  | .tstat a td => some (packAT 0x2F td a 0 0)
  | .ttrans td ta => some (packAT 0x30 td ta 0 0)
  | _ => none

/-- Op2 in a context word: I and imm, or b (R238). -/
def packOp2 : Op2 → Nat
  | .reg c => c.val * 2 ^ 20
  | .imm v => 2 ^ 19 + v.toNat
/-- A context word of three operands (R238). -/
def packX (cop d a : Nat) (o : Op2) : Nat := cop * 2 ^ 26 + d * 2 ^ 24 + a * 2 ^ 22 + packOp2 o

/-- The word of a context instruction. -/
def encodeX : Instr → Option Nat
  | .ctxCnop => some 0
  | .cmov d o => some (packX 0x01 d 0 o)
  | .cidx d => some (0x02 * 2 ^ 26 + d.val * 2 ^ 24)
  | .cget d s => some (0x03 * 2 ^ 26 + d.val * 2 ^ 24 + s.code)
  | .cput s a => some (0x04 * 2 ^ 26 + a.val * 2 ^ 22 + s.code)
  | .cadd d a o => some (packX 0x08 d a o)
  | .csub d a o => some (packX 0x09 d a o)
  | .cmul d a o => some (packX 0x0A d a o)
  | .cand d a o => some (packX 0x0B d a o)
  | .cor d a o => some (packX 0x0C d a o)
  | .cshl d a o => some (packX 0x0D d a o)
  | .cshr d a o => some (packX 0x0E d a o)
  | .cmin d a o => some (packX 0x0F d a o)
  | .cmax d a o => some (packX 0x10 d a o)
  | .cfadd d a o => some (packX 0x14 d a o)
  | .cfmul d a o => some (packX 0x15 d a o)
  | .cfmax d a o => some (packX 0x16 d a o)
  | .ccmp c a o => some (packX 0x18 0 a o + c.code * 2 ^ 16)
  | .cjmp c t => some (0x19 * 2 ^ 26 + c.code * 2 ^ 16 + t.toNat)
  | .cnb d o => some (packX 0x1C d 0 o)
  | .cin d => some (0x1D * 2 ^ 26 + d.val * 2 ^ 24)
  | .cout a => some (0x1E * 2 ^ 26 + a.val * 2 ^ 22)
  | .cwe a t => some (0x20 * 2 ^ 26 + a.val * 2 ^ 22 + t.toNat)
  | .cws s => some (0x21 * 2 ^ 26 + s.val)
  | .cww o => some (packX 0x22 0 0 o)
  | .csig k => some (0x28 * 2 ^ 26 + k.val)
  | .cdone => some (0x29 * 2 ^ 26)
  | .cflt c => some (0x2A * 2 ^ 26 + c.toNat)
  | _ => none

/-- The words of a well-formed instruction: C word and A word of a pair that holds it alone, or the context word and
zero. An event has none. -/
def encode (i : Instr) : Option (Nat × Nat) :=
  match encodeC i with
  | some p => some p
  | none => match encodeA i with
    | some w => some (0, w)
    | none => (encodeX i).map fun w => (w, 0)

/-! ### The table's words -/

/-- Which slot a bare 32-bit word of the opcode table belongs to. The table gives C words, A words and context words
alike as 32 bits; the word is read as an A word when its top six bits and the rest name one, as a C word next, and as a
context word when the C reading would be a CNOP with a predicate or a lone bit (log 19). -/
inductive WordClass | c | a | x | none
  deriving DecidableEq, Repr

def classifyWord (w : Nat) : WordClass :=
  if fld w 26 6 != 0 && (decodeA w).isSome then .a
  else if (decodeC w 0).isSome && (decodeC w 0 != some .cnop || w == 0) then .c
  else if (decodeX w).isSome then .x
  else if (decodeC w 0).isSome then .c
  else .none

/-- The instruction the decoder reads from a table row's bits. -/
def decodeTableWord (nbits w : Nat) : Option Instr :=
  if nbits ≤ 32 then
    match classifyWord w with
    | .c => decodeC w 0
    | .a => decodeA w
    | .x => decodeX w
    | .none => none
  else decodeC (w % 2 ^ 32) (w / 2 ^ 32)

end Sys2Proof
end

