-- ==== Sys2Proof/Machine/Herd.lean ====
section
/-! DEFINITION. Herds and sweeps (11, R233 to R250, R403; 12, R251 to R262): the cell, the context instructions, the
activation, the sweep engine and its events, and the five instructions of a task. -/

namespace Sys2Proof.Machine

/-! ### Cells (R233) -/

/-- A cell. -/
structure Cell where
  done : Bool
  flt : Bool
  wk : BitVec 2
  pc : BitVec 6
  wts : BitVec 6
  warg : BitVec 8
  aux : BitVec 8
  e : BitVec 32
  deriving DecidableEq, Repr

/-- A cell from its word (R233). -/
def Cell.ofNat (w : Nat) : Cell :=
  { done := w / 2 ^ 63 % 2 == 1, flt := w / 2 ^ 62 % 2 == 1, wk := BitVec.ofNat 2 (w / 2 ^ 60), pc := BitVec.ofNat 6 (w / 2 ^ 54)
    wts := BitVec.ofNat 6 (w / 2 ^ 48), warg := BitVec.ofNat 8 (w / 2 ^ 40), aux := BitVec.ofNat 8 (w / 2 ^ 32), e := BitVec.ofNat 32 w }

/-- The word of a cell (R233). -/
def Cell.toNat (c : Cell) : Nat :=
  c.done.toNat * 2 ^ 63 + c.flt.toNat * 2 ^ 62 + c.wk.toNat * 2 ^ 60 + c.pc.toNat * 2 ^ 54 + c.wts.toNat * 2 ^ 48 +
    c.warg.toNat * 2 ^ 40 + c.aux.toNat * 2 ^ 32 + c.e.toNat

/-- A herd entry of a cluster's sweep engine. -/
def State.herdAt (s : State) (n : Nat) (h : Fin 16) : Option Herd := (s.clusterAt n).herds[h]
/-- A herd changed. -/
def State.modHerd (s : State) (n : Nat) (h : Fin 16) (f : Herd → Herd) : State :=
  s.modCluster n fun c => { c with herds := c.herds.set h (c.herds[h].map f) }
/-- The run of a herd changed. -/
def State.modRun (s : State) (n : Nat) (h : Fin 16) (f : Run → Run) : State :=
  s.modHerd n h fun x => { x with run := x.run.map f }
/-- An entry set. -/
def State.setHerd (s : State) (n : Nat) (h : Fin 16) (x : Option Herd) : State :=
  s.modCluster n fun c => { c with herds := c.herds.set h x }

/-! ### The engine's accesses (R36, R242, R244) -/

/-- The key of `n` bytes that a herd's engine may access, or 0xF4 (R242). -/
def State.engineKey (s : State) (cluster : Nat) (rcb p : Word) (n : Nat) (k : AccKind) : Except (BitVec 8) Nat :=
  let w := s.regionWho rcb (cluster * 8)
  match s.resolve w p k, s.resolve w (p + BitVec.ofNat 64 (n - 1)) k with
  | .ok (.mem key), .ok _ => .ok key
  | _, _ => .error 0xF4

/-- A read by an engine, or the code of its failure (R242, R244). -/
def State.engineRead (s : State) (cluster : Nat) (rcb p : Word) (n : Nat) : Except (BitVec 8) Nat :=
  match s.engineKey cluster rcb p n .read with
  | .error x => .error x
  | .ok key => match s.dataFault key n false with
    | some f => .error (if f.1 = Cause.translation then 0xF4 else 0xF5)
    | none => .ok (s.load key n)

/-- A write by an engine, or the code of its failure: dropped on part of a poisoned unit (R244, R321) or on a core that
is contained (R375). -/
def State.engineWrite (s : State) (cluster : Nat) (rcb p : Word) (n v : Nat) : Except (BitVec 8) State :=
  match s.engineKey cluster rcb p n .write with
  | .error x => .error x
  | .ok key => match s.performStores (cluster * 8) n 0 [(.mem key, v)] none with
    | (s1, none) => .ok s1
    | (_, some f) => .error (if f.1 = Cause.translation then 0xF4 else 0xF5)

/-- The address of cell `i` (R233). -/
def Herd.cellAddr (x : Herd) (i : Nat) : Word := x.cellBase + BitVec.ofNat 64 (8 * i)

/-- Cell `i` of a herd as it stands, or the code of the failure. -/
def State.readCell (s : State) (n : Nat) (x : Herd) (i : Nat) : Except (BitVec 8) Cell :=
  (s.engineRead n x.rcb (x.cellAddr i) 8).map Cell.ofNat

/-! ### The registers of the activation (R237) -/

/-- The running activation changed. -/
def State.modAct (s : State) (f : Act → Act) : State := { s with act := f s.act }
/-- The herd of the running activation. -/
def State.herd (s : State) : Option Herd := s.herdAt s.act.cluster s.act.entry
/-- The herd of the running activation changed. -/
def State.modOwnHerd (s : State) (f : Herd → Herd) : State := s.modHerd s.act.cluster s.act.entry f
/-- A field of the herd of the running activation. -/
def State.ofHerd {α : Type} (s : State) (d : α) (f : Herd → α) : α := match s.herd with
  | some h => f h
  | none => d

/-- A lane register written. -/
def Act.setC (a : Act) (d : CIx) (v : BitVec 32) : Act := { a with c := a.c.set d v }
/-- Op2 (R238). -/
def Act.op2 (a : Act) : Op2 → BitVec 32
  | .reg b => a.c[b]
  | .imm v => v.signExtend 32
/-- Op2 of CFADD, CFMUL and CFMAX: an immediate is the upper half of an FP32 value (R238). -/
def Act.op2F (a : Act) : Op2 → BitVec 32
  | .reg b => a.c[b]
  | .imm v => v.zeroExtend 32 <<< 16

/-- ElementFault(x): the element retires, its PC the one of the instruction at hand (R244, R252). -/
def Act.fault (a : Act) (x : BitVec 8) : Act :=
  { a with
    status := .faulted, flt := true, aux := x, wk := 0, wts := 0, warg := 0, e := if x = 0xF5 then 0 else a.e }
/-- The activation parks (R243). -/
def Act.park (a : Act) (wk : BitVec 2) (wts : BitVec 6) (warg : BitVec 8) : Act :=
  { a with status := .parked, wk := wk, wts := wts, warg := warg }
/-- The wait at hand is met, or was not (R243). -/
def Act.go (a : Act) (f : Bool) : Act := { a with f := f }

/-- One context instruction of the running activation: the next PC is the following one unless the instruction sets it,
and a pass beyond PLEN is ElementFault(0xF7) (R237). -/
def ctxRun (f : State → State) (s : State) : State :=
  if s.act.status ≠ .running then s
  else
    let plen := s.ofHerd 63 (·.plen)
    let t := f (s.modAct fun a => { a with next := a.pc + 1 })
    if t.act.status = .retired ∨ t.act.status = .faulted then t
    else if plen < t.act.next then t.modAct fun a => { a.fault 0xF7 with pc := plen }
    else t.modAct fun a => { a with pc := a.next }

/-! ### Context instructions (R239 to R244) -/

/-- R239. -/
def ctxOpCnop (s : State) : State := s
/-- R239. -/
def ctxOpMov (d : CIx) (o : Op2) (s : State) : State := s.modAct fun a => a.setC d (a.op2 o)
/-- R239. -/
def ctxOpIdx (d : CIx) (s : State) : State := s.modAct fun a => a.setC d (BitVec.ofNat 32 a.i)
/-- R239. -/
def ctxOpGet (d : CIx) (sel : GetSel) (s : State) : State := s.modAct fun a => a.setC d (match sel with
  | .e => a.e
  | .aux => a.aux.zeroExtend 32
  | .p n => s.ofHerd 0 fun h => h.params[n])
/-- R239. -/
def ctxOpPut (sel : PutSel) (r : CIx) (s : State) : State := s.modAct fun a => match sel with
  | .e => { a with e := a.c[r] }
  | .aux => { a with aux := (a.c[r]).truncate 8 }
/-- A two-operand integer instruction (R239). -/
def ctxInt (f : BitVec 32 → BitVec 32 → BitVec 32) (d r : CIx) (o : Op2) (s : State) : State :=
  s.modAct fun a => a.setC d (f a.c[r] (a.op2 o))
/-- R239. -/
def ctxOpAdd (d r : CIx) (o : Op2) (s : State) : State := ctxInt (· + ·) d r o s
/-- R239. -/
def ctxOpSub (d r : CIx) (o : Op2) (s : State) : State := ctxInt (· - ·) d r o s
/-- R239. -/
def ctxOpMul (d r : CIx) (o : Op2) (s : State) : State := ctxInt (· * ·) d r o s
/-- R239. -/
def ctxOpAnd (d r : CIx) (o : Op2) (s : State) : State := ctxInt (· &&& ·) d r o s
/-- R239. -/
def ctxOpOr (d r : CIx) (o : Op2) (s : State) : State := ctxInt (· ||| ·) d r o s
/-- R239. -/
def ctxOpShl (d r : CIx) (o : Op2) (s : State) : State := ctxInt (fun x y => x <<< (y.toNat % 32)) d r o s
/-- R239. -/
def ctxOpShr (d r : CIx) (o : Op2) (s : State) : State := ctxInt (fun x y => x >>> (y.toNat % 32)) d r o s
/-- R239. -/
def ctxOpMin (d r : CIx) (o : Op2) (s : State) : State := ctxInt (fun x y => if y.slt x then y else x) d r o s
/-- R239. -/
def ctxOpMax (d r : CIx) (o : Op2) (s : State) : State := ctxInt (fun x y => if x.slt y then y else x) d r o s

/-- The flags that the herd keeps (R240, R249). -/
def herdFlags : Flags := Flag.nv ||| Flag.of ||| Flag.uf ||| Flag.nx
/-- A two-operand FP32 instruction under the descriptor's RND; its flags go to the herd's FLAGS (R240). -/
def ctxFloat (f : Rnd → Nat → Nat → Nat × Flags) (d r : CIx) (o : Op2) (s : State) : State :=
  let x := f (Rnd.ofBits (s.ofHerd 0 (·.rnd))) (s.act.c[r]).toNat (s.act.op2F o).toNat
  (s.modAct fun a => a.setC d (BitVec.ofNat 32 x.1)).modOwnHerd fun h => { h with flags := h.flags ||| (x.2 &&& herdFlags) }
/-- R240. -/
def ctxOpFadd (d r : CIx) (o : Op2) (s : State) : State := ctxFloat (addF Fmt.fp32) d r o s
/-- R240. -/
def ctxOpFmul (d r : CIx) (o : Op2) (s : State) : State := ctxFloat (mulF Fmt.fp32) d r o s
/-- R240, R110. -/
def ctxOpFmax (d r : CIx) (o : Op2) (s : State) : State := ctxFloat (fun r a b => minMaxF Fmt.fp32 r true a b) d r o s

/-- The condition of a CCMP, with the flags that it sets (R241). -/
def ccmp (r : Rnd) (c : CCond) (x y : BitVec 32) : Bool × Flags := match c with
  | .eq => (x == y, 0)
  | .ne => (x != y, 0)
  | .lt => (x.slt y, 0)
  | .ge => (!x.slt y, 0)
  | .ltu => (x.ult y, 0)
  | .geu => (!x.ult y, 0)
  | .flt => cmpF Fmt.fp32 r .lt x.toNat y.toNat
  | .fle => cmpF Fmt.fp32 r .le x.toNat y.toNat
/-- R241. -/
def ctxOpCmp (c : CCond) (r : CIx) (o : Op2) (s : State) : State :=
  let x := ccmp (Rnd.ofBits (s.ofHerd 0 (·.rnd))) c s.act.c[r] (s.act.op2 o)
  (s.modAct fun a => { a with f := x.1 }).modOwnHerd fun h => { h with flags := h.flags ||| (x.2 &&& herdFlags) }
/-- R241. -/
def ctxOpJmp (c : JCond) (t : BitVec 6) (s : State) : State := s.modAct fun a =>
  if (match c with | .always => true | .f => a.f | .nf => !a.f) then { a with next := t.toNat } else a

/-- An element offset or sweep count above 255 (R242, R243). -/
def tooFar (k : Nat) : Bool := decide (255 < k)
/-- R242. -/
def ctxOpNb (d : CIx) (o : Op2) (s : State) : State :=
  let k := (s.act.op2 o).toNat
  if k = 0 then s.modAct (·.fault 0xF1)
  else if tooFar k then s.modAct (·.fault 0xF2)
  else if s.act.i < k then s.modAct fun a => { a.setC d 0 with f := true }
  else match s.herd with
    | none => s
    | some h => match s.readCell s.act.cluster h (s.act.i - k) with
      | .error x => s.modAct (·.fault x)
      | .ok c => s.modAct fun a => { a.setC d c.e with f := c.done }
/-- The address of a tensor's word for the element at hand (R242). -/
def State.tensorWord (s : State) (base : Word) : Word := base + BitVec.ofNat 64 (4 * s.act.i)
/-- R242. -/
def ctxOpIn (d : CIx) (s : State) : State := match s.herd with
  | none => s
  | some h =>
    if h.inBase = 0 then s.modAct (·.fault 0xF3)
    else match s.engineRead s.act.cluster h.rcb (s.tensorWord h.inBase) 4 with
      | .error x => s.modAct (·.fault x)
      | .ok v => s.modAct fun a => a.setC d (BitVec.ofNat 32 v)
/-- R242. -/
def ctxOpOut (r : CIx) (s : State) : State := match s.herd with
  | none => s
  | some h =>
    if h.outBase = 0 then s.modAct (·.fault 0xF3)
    else match s.engineWrite s.act.cluster h.rcb (s.tensorWord h.outBase) 4 (s.act.c[r]).toNat with
      | .error x => s.modAct (·.fault x)
      | .ok t => t

/-- The test of an element wait on element `j`, as it stands (R243, R252). -/
def State.elemMet (s : State) (n : Nat) (h : Herd) (i k : Nat) (t : BitVec 6) : Except (BitVec 8) Bool :=
  if i < k then .ok true
  else (s.readCell n h (i - k)).map fun c => c.done || (t != 0 && decide (t.toNat ≤ c.pc.toNat))
/-- R243. -/
def ctxOpWe (r : CIx) (t : BitVec 6) (s : State) : State :=
  let k := (s.act.c[r]).toNat
  if k = 0 then s.modAct (·.fault 0xF1)
  else if tooFar k then s.modAct (·.fault 0xF2)
  else match s.herd with
    | none => s
    | some h => match s.elemMet s.act.cluster h s.act.i k t with
      | .error x => s.modAct (·.fault x)
      | .ok true => s.modAct (·.go false)
      | .ok false => s.modAct (·.park 1 t (BitVec.ofNat 8 k))
/-- How a wait slot stands in the sweep's snapshot (R253). -/
def Herd.snapOf (h : Herd) (k : Fin 16) : Snap := match h.run with
  | some r => r.snap[k]
  | none => .unbound
/-- R243. -/
def ctxOpWs (k : Fin 16) (s : State) : State := match s.ofHerd Snap.unbound (·.snapOf k) with
  | .unbound => s.modAct (·.fault 0xF6)
  | .met => s.modAct (·.go false)
  | .forced => s.modAct (·.go true)
  | .unmet => s.modAct (·.park 2 0 (BitVec.ofNat 8 k.val))
/-- R243. -/
def ctxOpWw (o : Op2) (s : State) : State :=
  let n := (s.act.op2 o).toNat
  if n = 0 then s.modAct (·.go false)
  else if tooFar n then s.modAct (·.fault 0xF2)
  else s.modAct (·.park 3 0 (BitVec.ofNat 8 n))

/-- The SIGNAL effect of a kind without a discharge (R180, R244, R247). -/
def State.signalOnly (s : State) (key v : Nat) : State :=
  let o := s.obj key
  if o.poisoned then s else s.changeObj key (o.signal v)
/-- R244. -/
def ctxOpSig (k : Fin 4) (s : State) : State := match s.herd with
  | none => s
  | some h =>
    let v := h.counters[k] + 1
    let s1 := s.modOwnHerd fun h => { h with counters := h.counters.set k v }
    match h.run.bind fun r => r.counted[k] with
    | some key => s1.signalOnly key (if (s.obj key).kind = 0 then v.toNat else 1)
    | none => s1
/-- R244. -/
def ctxOpDone (s : State) : State := s.modAct fun a => { a with status := .retired, wk := 0, wts := 0, warg := 0 }
/-- R244. -/
def ctxOpFlt (code : BitVec 8) (s : State) : State := s.modAct (·.fault code)

/-- One context instruction of an activation; no other word decodes in a context program (R76). -/
def ctxStep (i : Instr) (s : State) : State := match i with
  | .ctxCnop => ctxRun ctxOpCnop s
  | .cmov d o => ctxRun (ctxOpMov d o) s
  | .cidx d => ctxRun (ctxOpIdx d) s
  | .cget d x => ctxRun (ctxOpGet d x) s
  | .cput x a => ctxRun (ctxOpPut x a) s
  | .cadd d a o => ctxRun (ctxOpAdd d a o) s
  | .csub d a o => ctxRun (ctxOpSub d a o) s
  | .cmul d a o => ctxRun (ctxOpMul d a o) s
  | .cand d a o => ctxRun (ctxOpAnd d a o) s
  | .cor d a o => ctxRun (ctxOpOr d a o) s
  | .cshl d a o => ctxRun (ctxOpShl d a o) s
  | .cshr d a o => ctxRun (ctxOpShr d a o) s
  | .cmin d a o => ctxRun (ctxOpMin d a o) s
  | .cmax d a o => ctxRun (ctxOpMax d a o) s
  | .cfadd d a o => ctxRun (ctxOpFadd d a o) s
  | .cfmul d a o => ctxRun (ctxOpFmul d a o) s
  | .cfmax d a o => ctxRun (ctxOpFmax d a o) s
  | .ccmp c a o => ctxRun (ctxOpCmp c a o) s
  | .cjmp c t => ctxRun (ctxOpJmp c t) s
  | .cnb d o => ctxRun (ctxOpNb d o) s
  | .cin d => ctxRun (ctxOpIn d) s
  | .cout a => ctxRun (ctxOpOut a) s
  | .cwe a t => ctxRun (ctxOpWe a t) s
  | .cws k => ctxRun (ctxOpWs k) s
  | .cww o => ctxRun (ctxOpWw o) s
  | .csig k => ctxRun (ctxOpSig k) s
  | .cdone => ctxRun ctxOpDone s
  | .cflt x => ctxRun (ctxOpFlt x) s
  | _ => s

/-! ### Activations and visits (R237, R252, R403) -/

/-- FAULTS of a herd (R249). -/
def Herd.countFault (h : Herd) : Herd := { h with faults := min (h.faults + 1) 0xFFFFFF }

/-- The element's state cannot be recorded: FAULTED is set, and the run ends at the next boundary, as STOP does (R403). -/
def Herd.lost (h : Herd) : Herd := { h.countFault with faulted := true, run := h.run.map fun r => { r with stop := true } }

/-- A cell written back: G counts a change of E, DONE, FLT or the PC field (R252); an element that faulted is counted
(R249), and so is a cell that cannot be written (R403). -/
def State.putCell (s : State) (n : Nat) (h : Fin 16) (x : Herd) (i : Nat) (old : Option Cell) (c : Cell) (fault : Bool) : State :=
  match s.engineWrite n x.rcb (x.cellAddr i) 8 c.toNat with
  | .error _ => s.modHerd n h Herd.lost
  | .ok t => t.modHerd n h fun y =>
    let y1 := if (match old with
        | some o => o.e != c.e || o.done != c.done || o.flt != c.flt || o.pc != c.pc
        | none => true) then { y with g := y.g + 1 } else y
    if fault then y1.countFault else y1

/-- The cell that an activation leaves; one that ran out of its budget is ready (R237, R252). -/
def Act.cell (a : Act) : Cell :=
  let run := a.status == .running
  { done := a.status == .retired || a.status == .faulted, flt := a.flt, wk := if run then 0 else a.wk, pc := BitVec.ofNat 6 a.pc
    wts := if run then 0 else a.wts, warg := if run then 0 else a.warg, aux := a.aux, e := a.e }

/-- The activation of the element being visited, as it stands. -/
def State.setActing (s : State) (n : Nat) (h : Fin 16) (a : Option (Act × Nat × Nat)) : State :=
  s.modRun n h fun r => { r with at_ := r.at_.map fun v => { v with act := a } }

/-- Activate(i, f): the activation begins, with BUDGET + 1 instructions to run (R237, R252). -/
def State.activate (s : State) (n : Nat) (h : Fin 16) (x : Herd) (i : Nat) (c : Cell) (f : Bool) : State :=
  let a : Act :=
    { cluster := n, entry := h, i := i, c := Vector.replicate 4 0, f := f, pc := c.pc.toNat, next := c.pc.toNat, e := c.e, aux := c.aux
      flt := c.flt, wk := 0, wts := 0, warg := 0, status := .running }
  s.setActing n h (some (a, x.budget + 1, c.toNat))

/-- One instruction of the activation under way; when it has ended, or its budget has, the cell is written back (R237). A PC
beyond PLEN that a cell held from outside is the case of 0xF7 (log 22). -/
def State.actStep (s : State) (n : Nat) (h : Fin 16) (x : Herd) (a : Act) (left old : Nat) : State :=
  let u := { s with act := a }
  let t := match x.prog[a.pc]? with
    | some i => ctxStep i u
    | none => u.modAct fun a => { a.fault 0xF7 with pc := x.plen }
  if t.act.status = .running ∧ 1 < left then t.setActing n h (some (t.act, left - 1, old))
  else ((t.putCell n h x a.i (some (Cell.ofNat old)) t.act.cell (t.act.status == .faulted)).setActing n h none).modAct
    fun a => { a with status := .retired }

/-- An element fault found at a visit: the cell keeps its PC field (log 22). -/
def State.visitFault (s : State) (n : Nat) (h : Fin 16) (x : Herd) (i : Nat) (c : Cell) (code : BitVec 8) : State :=
  s.putCell n h x i (some c)
    { c with done := true, flt := true, wk := 0, wts := 0, warg := 0, aux := code, e := if code = 0xF5 then 0 else c.e } true

/-- A visit of element `i`, to its end or to the activation that it begins (R252, R403). The PC field of a cell whose data was uncorrectable is a free value
(log 22). -/
def State.visit (s : State) (n : Nat) (h : Fin 16) (i : Nat) : State := match s.herdAt n h with
  | none => s
  | some x => match s.readCell n x i with
    | .error code =>
      if code = 0xF4 then s.modHerd n h Herd.lost
      else { s with free := s.free + 1 }.putCell n h x i none
        { done := true, flt := true, wk := 0, pc := (Config.freeValue s.free).truncate 6, wts := 0, warg := 0, aux := code, e := 0 } true
    | .ok c =>
      if c.done then s
      else match c.wk.toNat with
        | 0 => s.activate n h x i c (c.wts == 0x3F && c.warg == 0xFF)
        | 1 => match s.elemMet n x i c.warg.toNat c.wts with
          | .error code => s.visitFault n h x i c code
          | .ok true => s.activate n h x i c false
          | .ok false => s
        | 2 => match (if c.warg.toNat < 16 then x.snapOf (Fin.ofNat 16 c.warg.toNat) else .unbound) with
          | .unbound => s.visitFault n h x i c 0xF6
          | .met => s.activate n h x i c false
          | .forced => s.activate n h x i c true
          | .unmet => s
        | _ =>
          if c.warg - 1 = 0 then s.activate n h x i { c with warg := 0 } false
          else s.putCell n h x i (some c) { c with warg := c.warg - 1 } false

/-! ### Bands (R255, R256) -/

/-- Bands of a herd. -/
def Herd.bandCount (x : Herd) : Nat := (x.count + x.band - 1) / x.band
/-- The elements of band `b`. -/
def Herd.elems (x : Herd) (b : Nat) : List Nat := (List.range x.band).filterMap fun k =>
  if b * x.band + k < x.count then some (b * x.band + k) else none

/-- The slots that are satisfied in a snapshot (R253). -/
def satOf (snap : Vector Snap 16) : BitVec 16 := snap.toList.zipIdx.foldl (fun m e =>
  if e.1 = .met ∨ e.1 = .forced then m ||| BitVec.ofNat 16 (2 ^ e.2) else m) 0

/-- Does the skip rule pass band `b` over (R256)? -/
def Run.skips (r : Run) (g b : Nat) : Bool := match tabGet r.bands b with
  | none => false
  | some x => x.allDone || (!x.ready && !x.sww && (x.sleep &&& (satOf r.snap &&& ~~~r.base)) == 0 && !(x.elemw && decide (x.stamp < g)))

/-- The summary of a band from its cells (R255). -/
def State.summary (s : State) (n : Nat) (x : Herd) (b : Nat) : Band :=
  (x.elems b).foldl (fun (y : Band) i => match s.readCell n x i with
    | .error _ => { y with ready := true, allDone := false }
    | .ok c =>
      if c.done then y
      else match c.wk.toNat with
        | 0 => { y with ready := true, allDone := false }
        | 1 => { y with elemw := true, allDone := false }
        | 2 => { y with sleep := y.sleep ||| BitVec.ofNat 16 (2 ^ c.warg.toNat), allDone := false }
        | _ => { y with sww := true, allDone := false })
    { ready := false, allDone := true, sleep := 0, elemw := false, sww := false, stamp := x.g }

/-! ### Wakes (R248, R258) -/

/-- A SWWAKE applied to element `i` (R258). A cell that cannot be read or written is left as it is (log 22). -/
def State.applyWake (s : State) (n : Nat) (h : Fin 16) (i : Nat) : State := match s.herdAt n h with
  | none => s
  | some x => match s.readCell n x i with
    | .error _ => s
    | .ok c =>
      if c.done || c.wk == 0 then s
      else match s.engineWrite n x.rcb (x.cellAddr i) 8 { c with wk := 0, wts := 0x3F, warg := 0xFF }.toNat with
        | .error _ => s
        | .ok t => t.modRun n h fun r => { r with bands := match tabGet r.bands (i / x.band) with
            | some y => tabPut r.bands (i / x.band) { y with ready := true }
            | none => r.bands }

/-- The queue of SWWAKEs applied in arrival order (R258). -/
def State.applyWakes (s : State) (n : Nat) (h : Fin 16) : State := match (s.herdAt n h).bind (·.run) with
  | none => s
  | some r => (r.wakes.foldl (fun s i => s.applyWake n h i) s).modRun n h fun r => { r with wakes := [] }

/-! ### Sweeps and runs (R247, R253, R257, R259) -/

/-- The obligations of a run, as entries (R202, R247). -/
def State.runObls (s : State) (x : Herd) (r : Run) : List Obl :=
  ((r.tl, some x.tlobj) :: r.counted.toList.zip x.cobjs.toList).foldl (fun l e => match e.1 with
    | some k => addObl l k (e.2.getD 0) (s.obj k)
    | none => l) []

/-- A run is over: its obligations are discharged with each VALUE as it stands (R247), or pass to its region's heir with
reason 5 (R207, R393). An entry that was freed is free (R246), and a region that waited for the run may complete (R336). -/
def State.closeRun (s : State) (n : Nat) (h : Fin 16) (pass : Bool) : State :=
  match s.herdAt n h with
  | none => s
  | some x => match x.run with
    | none => s
    | some r =>
      let t := s.setHerd n h (if r.free then none else some { x with run := none })
      let keys := (r.tl :: r.counted.toList).filterMap id
      let u := if pass then t.passFromNoCore x.rcb 5 (s.runObls x r)
        else keys.foldl (fun s k => s.changeObj k { s.obj k with owed := (s.obj k).owed - 1 }) t
      u.completeRegion 64 x.rcb

/-- A run ends at a band boundary, with the SWWAKEs that the engine holds applied (R247, R258, R259). -/
def State.endRun (s0 : State) (n : Nat) (h : Fin 16) : State :=
  let s := s0.applyWakes n h
  s.closeRun n h (((s.herdAt n h).bind (·.run)).any (·.pass))

/-- A run whose region's heir is to receive it ends at the next band boundary (R259). -/
def State.passRun (s : State) (n : Nat) (h : Fin 16) : State :=
  s.modRun n h fun r => { r with stop := true, pass := true, idle := false }

/-- The snapshot of a wait slot (R253). -/
def State.snapSlot (s : State) (w : Option Nat) (b : Option (Word × Word)) : Snap := match w, b with
  | some key, some (_, target) =>
    let o := s.obj key
    if o.poisoned then .forced
    else if o.cond target then .met
    else if o.unowed then .forced
    else .unmet
  | _, _ => .unbound

/-- Is every band known to be done (R257)? -/
def Herd.knownDone (x : Herd) (r : Run) : Bool := (List.range x.bandCount).all fun b => match tabGet r.bands b with
  | some y => y.allDone
  | none => false

/-- A sweep starts (R257): the snapshot, the wakes, and then the end of the run, an idle wait, or band 0. -/
def State.startSweep (s0 : State) (n : Nat) (h : Fin 16) : State :=
  let s1 := match s0.herdAt n h with
    | none => s0
    | some x => s0.modRun n h fun r => { r with
        idle := false
        snap := Vector.ofFn fun k => s0.snapSlot r.watched[k] x.slots[k] }
  let s := s1.applyWakes n h
  match s.herdAt n h with
  | none => s
  | some x => match x.run with
    | none => s
    | some r =>
      if r.stop || x.knownDone r then s.endRun n h
      else if (List.range x.bandCount).all (r.skips x.g) then s.modRun n h fun r => { r with idle := true }
      else s.modRun n h fun r => { r with cursor := some 0 }

/-- Is every element DONE (R249, R259)? -/
def State.allDone (s : State) (n : Nat) (x : Herd) : Bool := (List.range x.count).all fun i => match s.readCell n x i with
  | .ok c => c.done
  | .error _ => false

/-- A sweep completes (R259). -/
def State.completeSweep (s : State) (n : Nat) (h : Fin 16) : State := match s.herdAt n h with
  | none => s
  | some x => match x.run with
    | none => s
    | some r =>
      let s1 := s.modHerd n h fun x => { x with
        sweeps := (x.sweeps + 1) % 2 ^ 32
        run := x.run.map fun r => { r with swept := r.swept + 1, base := satOf r.snap, cursor := none } }
      let s2 := match r.tl with
        | some key => s1.signalOnly key 1
        | none => s1
      if s2.allDone n x || (r.limit != 0 && decide (r.limit ≤ r.swept + 1)) then s2.endRun n h else s2

/-- The cursor passes band `b`: to the next one, or to the end of the sweep (R257). -/
def State.passBand (s : State) (n : Nat) (h : Fin 16) (x : Herd) (b : Nat) : State :=
  if x.bandCount ≤ b + 1 then s.completeSweep n h else s.modRun n h fun r => { r with cursor := some (b + 1) }

/-- The visit of a band ends: its summary is made, where storage is held for it (R251, R255). -/
def State.endBand (s : State) (n : Nat) (h : Fin 16) (b : Nat) : State := match s.herdAt n h with
  | none => s
  | some y => (s.modRun n h fun r => { r with
      at_ := none, bands := if b < r.store then tabPut r.bands b (s.summary n y b) else r.bands }).passBand n h y b

/-- The visit of band `b` goes on: with an instruction of the activation under way, or with the next element. The elements
come in order (R252). -/
def State.visitNext (s : State) (n : Nat) (h : Fin 16) (x : Herd) (b : Nat) (v : Visit) : State :=
  let t := match v.act with
    | some (a, left, old) => s.actStep n h x a left old
    | none => s.visit n h (b * x.band + v.k)
  match ((t.herdAt n h).bind (·.run)).bind (·.at_) with
  | none => t
  | some y =>
    if y.act.isSome then t
    else if v.k + 1 < (x.elems b).length then t.modRun n h fun r => { r with at_ := some { k := v.k + 1, act := none } }
    else t.endBand n h b

/-- A run at a band boundary, with the cursor before band `b` (R257). -/
def State.atBoundary (s0 : State) (n : Nat) (h : Fin 16) (b : Nat) : State :=
  let s := s0.applyWakes n h
  match s.herdAt n h with
  | none => s
  | some x => match x.run with
    | none => s
    | some r =>
      if r.stop then s.endRun n h
      else if r.skips x.g b then s.passBand n h x b
      else
        let v : Visit := { k := 0, act := none }
        (s.modRun n h fun r => { r with at_ := some v }).visitNext n h x b v

/-- The band visit that an engine has under way, if any. -/
def State.visiting (s : State) (cluster : Nat) : Option (Fin 16 × Herd × Nat × Visit) := allSlots.findSome? fun h =>
  (s.herdAt cluster h).bind fun x => x.run.bind fun r => r.at_.bind fun v => r.cursor.map fun b => (h, x, b, v)

/-! ### Events of the sweep engine -/

/-- SWEEP_START: a run that is between two sweeps starts the next (R253, R257). -/
def execSweepStart (cluster : Nat) (h : Fin 16) (s : State) : Host.Outcome State Fault Refusal :=
  .next (match (s.herdAt cluster h).bind (·.run) with
    | some r => if r.cursor.isNone ∧ !r.idle ∧ !r.out then s.startSweep cluster h else s
    | none => s)

/-- The run that has the engine next (R261): the highest priority, then round robin by entry; a run that is switched
out comes only to its end (R262). -/
def State.nextRun (s : State) (cluster : Nat) : Option (Fin 16) :=
  let c := s.clusterAt cluster
  let order := (List.range 16).map fun k => Fin.ofNat 16 (c.engLast.val + 1 + k)
  let open_ := order.filter fun h => match c.herds[h].bind (·.run) with
    | some r => !r.idle && (!r.out || r.stop)
    | none => false
  let prio := fun (h : Fin 16) => match c.herds[h] with
    | some x => s.rcbPrio x.rcb
    | none => 0
  open_.find? fun h => prio h == bestPrio (open_.map prio)

/-- BAND_VISIT: the engine goes on with the band visit that it has under way. At a band boundary the chosen run skips a band or
begins to visit it, after starting a sweep if it is between two (R252, R257, R261). -/
def execBandVisit (cluster : Nat) (s : State) : Host.Outcome State Fault Refusal :=
  .next (match s.visiting cluster with
    | some (h, x, b, v) => s.visitNext cluster h x b v
    | none => match s.nextRun cluster with
      | none => s
      | some h =>
        let s1 := s.modCluster cluster fun c => { c with engLast := h }
        let s2 := match (s1.herdAt cluster h).bind (·.run) with
          | some r => if r.cursor.isNone then s1.startSweep cluster h else s1
          | none => s1
        match ((s2.herdAt cluster h).bind (·.run)).bind (·.cursor) with
        | some b => s2.atBoundary cluster h b
        | none => s2)

/-- IDLE_WAKE: a run that an object change, a SWWAKE, STOP or FREE has taken out of its idle wait takes a new snapshot
(R257). -/
def execIdleWake (cluster : Nat) (h : Fin 16) (s : State) : Host.Outcome State Fault Refusal :=
  .next (match (s.herdAt cluster h).bind (·.run) with
    | some r => if r.cursor.isNone ∧ !r.idle ∧ (!r.out || r.stop) then s.startSweep cluster h else s
    | none => s)

/-- ENGINE_SWITCH: service firmware switches a run out at a band boundary, or lets it go on (R262; log 22). -/
def execEngineSwitch (cluster : Nat) (h : Fin 16) (s : State) : Host.Outcome State Fault Refusal :=
  .next (s.modRun cluster h fun r => { r with out := !r.out })

/-! ### The instructions of a task (R234 to R249) -/

/-- The cluster of the issuing core. -/
def State.cluster (s : State) : Nat := clusterOfCore s.core

/-- The entry that a handle names, with its checks (R234). -/
def State.handleEntry (s : State) (w : Nat) : Option (Fin 16 × Herd) :=
  let h : Fin 16 := Fin.ofNat 16 (w % 16)
  if w / 2 ^ 32 ≠ 0 ∨ w / 2 ^ 28 % 8 ≠ 0 ∨ w / 2 ^ 31 % 2 = 0 ∨ w / 2 ^ 10 % 4 * 64 + w / 2 ^ 4 % 64 ≠ s.cluster then none
  else match s.herdAt s.cluster h with
    | none => none
    | some x =>
      let freed := match x.run with
        | some r => r.free
        | none => false
      if x.seq.toNat = w / 2 ^ 12 % 2 ^ 16 ∧ x.rcb = s.ctx.rcb ∧ !freed then some (h, x) else none

/-- A plain access to the engine behind its gates: the engine's answer decides on the pair (R153, R236). -/
def enginePlain (s : State) (gs gd : List GIx) (p : Plan) : Plan :=
  effect s gs gd true (gated s gs [] gd [] (if s.plainBlocked then .park .mem else asked s .home p))

/-- A plain access to the engine through a handle (R234). -/
def handlePlan (s : State) (gs gd : List GIx) (w : Nat) (f : Fin 16 → Herd → Plan) : Plan :=
  enginePlain s gs gd (match s.handleEntry w with
    | none => .trap (Trap.plain Cause.protection)
    | some (h, x) => f h x)

/-- A pointer of a descriptor as the engine uses it: tag 0xE becomes the local-store aperture (R236, R39). -/
def State.enginePtr (s : State) (p : Word) : Word :=
  if p.toNat / 2 ^ 60 = 0xE then BitVec.ofNat 64 (localBase s.core + p.toNat % 2 ^ 20) else p

/-- Tags that a pointer of a descriptor may have (R235). -/
def herdTag (p : Word) : Bool := p.toNat / 2 ^ 60 == 0 || p.toNat / 2 ^ 60 == 0xE

/-- R36 on the first and the last byte of a range (R236). The spec does not say for which kind of access, nor which address g4
holds: the model asks for a read, and gives the first byte's address for either (DESIGN CHOICE, log 74). -/
def rangeFault (s : State) (p : Word) (n : Nat) : Option Trap :=
  match s.resolve s.who p .read with
  | .error c => some (Trap.at_ c p)
  | .ok _ => match s.resolve s.who (p + BitVec.ofNat 64 (n - 1)) .read with
    | .error c => some (Trap.at_ c p)
    | .ok _ => none

/-- Does a range lie in the weight store, a plane scratchpad or host memory (R236)? Its pages have at least 64 KiB. -/
def rangeBanned (s : State) (p : Word) (n : Nat) : Bool :=
  ((List.range (n / 2 ^ 16 + 1)).map (· * 2 ^ 16) ++ [n - 1]).any fun k =>
    decide (k < n) && (match s.resolve s.who (p + BitVec.ofNat 64 k) .read with
      | .ok (.mem key) => !objHome key
      | _ => false)

/-- A word of a context program, decoded, with a jump target that PLEN allows (R76, R238, R241). -/
def decodeCtx (plen w : Nat) : Option Instr := match decodeX w with
  | some (.cjmp c t) => if t.toNat ≤ plen then some (.cjmp c t) else none
  | r => r

/-- The context program at an address: its instructions, or the fault of its first bad word (R76, R236). -/
def readProg (s : State) (plen : Nat) : Word → Nat → Except Trap (List Instr)
  | _, 0 => .ok []
  | p, n + 1 => match s.resolve s.who p .read with
    | .error c => .error (Trap.at_ c p)
    | .ok (.fab _ _) => .error (Trap.at_ Cause.addrTag p)
    | .ok (.mem key) => match s.dataFault key 4 false with
      | some f => .error (Trap.at_ f.1 p)
      | none => match decodeCtx plen (s.load key 4) with
        | none => .error (Trap.at_ Cause.illegal p)
        | some i => (readProg s plen (p + 4) n).map (i :: ·)

/-- The 64-bit words of the descriptor at an address (R235, R236). -/
def readDesc (s : State) (p : Word) : Except Trap (List Word) :=
  match s.element s.who p 64 64 .read, s.element s.who (p + 64) 64 64 .read with
  | .error t, _ => .error t
  | _, .error t => .error t
  | .ok (.mem a), .ok (.mem b) => match s.dataFault a 64 false, s.dataFault b 64 false with
    | some f, _ => .error (Trap.at_ f.1 p)
    | _, some f => .error (Trap.at_ f.1 p)
    | none, none => .ok ((List.range 8).map (fun k => BitVec.ofNat 64 (s.load (a + 8 * k) 8)) ++
        (List.range 8).map fun k => BitVec.ofNat 64 (s.load (b + 8 * k) 8))
  | .ok _, .ok _ => .error (Trap.at_ Cause.addrTag p)

/-- The object at a nonzero address of a descriptor or binding, with the kinds that may stand there (R181). -/
def herdObj (s : State) (p : Word) (kinds : List Nat) (k : AccKind) : Except Trap (Option Nat) :=
  if p = 0 then .ok none
  else match s.objAt s.who p k false with
    | .error t => .error t
    | .ok key => if kinds.contains (s.obj key).kind then .ok (some key) else .error (Trap.at_ Cause.protection p)

/-- The checks of SWDECL in their order, and the herd that it declares (R235, R236, R301). -/
def declareHerd (s : State) (ga : Word) : Except Trap Herd := do
  let l ← readDesc s ga
  let w1 := nth l 1
  let cell := nth l 0
  let inb := nth l 2
  let outb := nth l 3
  let prog := nth l 4
  let tl := nth l 5
  let plen := bitsOf w1 42 37
  let count := bitsOf w1 23 0 + 1
  let band := 8 * 2 ^ bitsOf w1 25 24
  let ranges := [(cell, 8 * count)] ++ (if inb = 0 then [] else [(inb, 4 * count)]) ++ (if outb = 0 then [] else [(outb, 4 * count)]) ++
    [(prog, 4 * (plen + 1))]
  let tag := fun (p : Word) => failIf (!herdTag p) (Trap.at_ Cause.addrTag p)
  let aligned := fun (p : Word) (n : Nat) => failIf (p.toNat % n != 0) (Trap.at_ Cause.misalign p)
  match firstFault ([failIf (bitsOf w1 63 43 != 0 || (l.drop 10).any (· != 0)) (Trap.plain Cause.format),
      tag cell, tag inb, tag outb, tag prog, aligned cell (8 * band), aligned inb 4, aligned outb 4, aligned prog 4] ++
      ranges.map (fun r => rangeFault s r.1 r.2) ++
      ranges.map fun r => failIf (rangeBanned s r.1 r.2) (Trap.at_ Cause.protection r.1)) with
  | some t => .error t
  | none =>
    let _ ← herdObj s tl [3] .write
    let is ← readProg s plen prog (plen + 1)
    .ok
      { seq := 0, rcb := s.ctx.rcb, cellBase := s.enginePtr cell, plen := plen, rnd := BitVec.ofNat 5 (bitsOf w1 36 32)
        budget := bitsOf w1 31 26, band := band, count := count, inBase := s.enginePtr inb, outBase := s.enginePtr outb, prog := is
        tlobj := tl, params := Vector.ofFn fun k => BitVec.ofNat 32 ((nth l (6 + k.val / 2)).toNat / 2 ^ (32 * (k.val % 2)))
        counters := Vector.replicate 4 0, slots := Vector.replicate 16 none, cobjs := Vector.replicate 4 none, flags := 0, faults := 0
        faulted := false, sweeps := 0, g := 0, run := none }

/-- A handle (R234). -/
def handleWord (cluster : Nat) (h : Fin 16) (seq : BitVec 16) : Word :=
  BitVec.ofNat 64 (2 ^ 31 + seq.toNat * 2 ^ 12 + cluster / 64 * 2 ^ 10 + cluster % 64 * 2 ^ 4 + h.val)

/-- All entries of a sweep engine. -/
def allEntries : List (Fin 16) := allSlots

/-- R236. Of several free entries the lowest-numbered one is taken: the spec does not say which (DESIGN CHOICE, log 73). -/
def planSwdecl (d a : GIx) (s : State) : Plan :=
  enginePlain s [a] [d] (match declareHerd s (s.gv a) with
    | .error t => .trap t
    | .ok x =>
      let n := s.cluster
      let c := s.clusterAt n
      match allEntries.find? fun h => c.herds[h].isNone with
      | none => objAct fun t => t.writeG d 0
      | some h =>
        let seq := c.seqs[h] + 1
        objAct fun t => ((t.modCluster n fun c => { c with
          seqs := c.seqs.set h seq
          herds := c.herds.set h (some { x with seq := seq }) }).writeG d (handleWord n h seq)))

/-- The ranks of objects. -/
def State.ranksOf (s : State) (l : List (Option Nat)) : List Nat := (l.filterMap id).map fun k => (s.obj k).rank

/-- The rank condition of R245: every wait-slot object's rank is below every rank that the run will owe. -/
def rankFault (s : State) (p : Word) (waits owed : List (Option Nat)) : Option Trap :=
  let w := s.ranksOf waits
  let o := s.ranksOf owed
  let hi := w.foldl max 0
  let lo := o.foldl min 0xFFFFFFFF
  if !w.isEmpty && !o.isEmpty && decide (lo ≤ hi) then some (objTrap Cause.sweepBindRank p hi lo) else none

/-- The key of an object whose address was checked earlier, if it still resolves. -/
def State.keyOf (s : State) (p : Word) : Option Nat := match s.resolve s.who p .read with
  | .ok (.mem k) => if p = 0 then none else some k
  | _ => none

/-- The keys of a herd's bound wait slots. -/
def Herd.slotKeys (s : State) (x : Herd) : List (Option Nat) := x.slots.toList.map fun b => b.bind fun e => s.keyOf e.1
/-- The keys of TLOBJ and of the bound counter objects. -/
def Herd.owedKeys (s : State) (x : Herd) : List (Option Nat) := s.keyOf x.tlobj :: x.cobjs.toList.map fun p => p.bind s.keyOf

/-- R245. -/
def planSwbind (d a b : GIx) (s : State) : Plan :=
  let w := (s.gv d).toNat
  let sel := w / 2 ^ 32 % 32
  let p := s.gv a
  let t := s.gv b
  handlePlan s [d, a, b] [] (w % 2 ^ 32) fun h x =>
    if w / 2 ^ 37 ≠ 0 ∨ 20 ≤ sel ∨ (16 ≤ sel ∧ t ≠ 0) then .trap (Trap.plain Cause.format)
    else if x.run.isSome then .trap (Trap.plain Cause.protection)
    else match (if sel < 16 then herdObj s p [0, 1, 2, 3, 4, 5] .read else herdObj s p [0, 1, 3] .write) with
      | .error t => .trap t
      | .ok _ =>
        let y : Herd := if sel < 16 then { x with slots := x.slots.set (Fin.ofNat 16 sel) (if p = 0 then none else some (p, t)) }
          else { x with cobjs := x.cobjs.set (Fin.ofNat 4 (sel - 16)) (if p = 0 then none else some p) }
        match rankFault s p (Herd.slotKeys s y) (Herd.owedKeys s y) with
        | some t => .trap t
        | none => objAct fun u => u.setHerd u.cluster h (some y)

/-- The band summaries that the runs of an engine hold storage for (R255). -/
def Cluster.bandStore (c : Cluster) : Nat := c.herds.toList.foldl (fun a h => match h.bind (·.run) with
  | some r => a + r.store
  | none => a) 0

/-- Do all objects of a list still pass R181 as one of the kinds (R247)? -/
def stillObj (s : State) (l : List Word) (kinds : List Nat) (k : AccKind) : Option Trap :=
  firstFault (l.map fun p => match herdObj s p kinds k with
    | .ok _ => none
    | .error _ => some (Trap.at_ Cause.protection p))

/-- The checks of R247 in their order. -/
def runFault (s : State) (x : Herd) : Option Trap :=
  firstFault
    [stillObj s [x.tlobj] [3] .write, stillObj s (x.cobjs.toList.filterMap id) [0, 1, 3] .write,
     stillObj s ((x.slots.toList.filterMap id).map (·.1)) [0, 1, 2, 3, 4, 5] .read,
     rankFault s 0 (Herd.slotKeys s x) (Herd.owedKeys s x)]

/-- A run starts (R247): every band unknown, and one obligation taken on TLOBJ and on each bound counter object. -/
def State.startRun (s : State) (n : Nat) (h : Fin 16) (x : Herd) (limit : Nat) : State :=
  let keys := Herd.owedKeys s x
  let r : Run :=
    { limit := limit, swept := 0, snap := Vector.replicate 16 .unbound, base := 0, cursor := none, at_ := none, idle := false, stop := false
      free := false, bands := [], store := min x.bandCount (16384 - (s.clusterAt n).bandStore), wakes := [], tl := keys.headD none
      counted := Vector.ofFn fun k => (keys.getD (k.val + 1) none)
      watched := Vector.ofFn fun k => ((Herd.slotKeys s x).getD k.val none), out := false, pass := false }
  (keys.filterMap id).foldl (fun s k => s.changeObj k { s.obj k with owed := (s.obj k).owed + 1 }) (s.modHerd n h fun x => { x with run := some r })

/-- R246. -/
def planSwrun (a b : GIx) (s : State) : Plan :=
  let w := (s.gv b).toNat
  let stop := w / 2 ^ 63 == 1
  let free := w / 2 ^ 62 % 2 == 1
  handlePlan s [a, b] [] (s.gv a).toNat fun h x =>
    if w / 2 ^ 32 % 2 ^ 30 ≠ 0 then .trap (Trap.plain Cause.format)
    else if free then objAct fun t => match x.run with
      | some _ => t.modRun t.cluster h fun r => { r with stop := true, free := true, idle := false }
      | none => t.setHerd t.cluster h none
    else if stop then objAct fun t => t.modRun t.cluster h fun r => { r with stop := true, idle := false }
    else if x.run.isSome then .trap (Trap.plain Cause.protection)
    else match runFault s x with
      | some t => .trap t
      | none => objAct fun t => t.startRun t.cluster h x (w % 2 ^ 32)

/-- R248, R258: at once while the run is idle or between sweeps, or there is none; otherwise at the next boundary. -/
def planSwwake (a b : GIx) (s : State) : Plan :=
  let i := (s.gv b).toNat
  handlePlan s [a, b] [] (s.gv a).toNat fun h x =>
    if x.count ≤ i then .trap (Trap.plain Cause.protection)
    else objAct fun t => match x.run with
      | some r =>
        if r.cursor.isNone then (t.applyWake t.cluster h i).modRun t.cluster h fun r => { r with idle := false }
        else t.modRun t.cluster h fun r => { r with wakes := r.wakes ++ [i] }
      | none => t.applyWake t.cluster h i

/-- Has any cell FLT = 1 (R249)? -/
def State.anyFlt (s : State) (n : Nat) (x : Herd) : Bool := (List.range x.count).any fun i => match s.readCell n x i with
  | .ok c => c.flt
  | .error _ => false

/-- The status word of a herd (R249). -/
def State.herdStatus (s : State) (n : Nat) (x : Herd) : Word :=
  let f := x.flags
  BitVec.ofNat 64 (x.run.isSome.toNat * 2 ^ 63 + (s.allDone n x).toNat * 2 ^ 62 + (x.faulted || s.anyFlt n x).toNat * 2 ^ 61 +
    (match x.run with | some r => r.idle.toNat | none => 0) * 2 ^ 60 + (f.getLsbD 3).toNat * 2 ^ 59 + (f.getLsbD 2).toNat * 2 ^ 58 +
    (f.getLsbD 1).toNat * 2 ^ 57 + (f.getLsbD 0).toNat * 2 ^ 56 + x.faults * 2 ^ 32 + x.sweeps)

/-- R249. -/
def planSwstat (d a : GIx) (s : State) : Plan :=
  let w := (s.gv a).toNat
  let sel := w / 2 ^ 32 % 8
  handlePlan s [a] [d] (w % 2 ^ 32) fun _ x =>
    if w / 2 ^ 35 ≠ 0 ∨ 5 ≤ sel then .trap (Trap.plain Cause.format)
    else objAct fun t => t.writeG d (if sel = 0 then s.herdStatus s.cluster x
      else (x.counters[Fin.ofNat 4 (sel - 1)]).zeroExtend 64)

/-! ### The meanings of the context instructions -/

/-- CtxCnop in the running activation (R239, R237). -/
def execCtxCnop (s : State) : Host.Outcome State Fault Refusal := .next (ctxRun ctxOpCnop s)

/-- Cmov in the running activation (R239, R237). -/
def execCmov (d : CIx) (o : Op2) (s : State) : Host.Outcome State Fault Refusal := .next (ctxRun (ctxOpMov d o) s)

/-- Cidx in the running activation (R239, R237). -/
def execCidx (d : CIx) (s : State) : Host.Outcome State Fault Refusal := .next (ctxRun (ctxOpIdx d) s)

/-- Cget in the running activation (R239, R237). -/
def execCget (d : CIx) (x : GetSel) (s : State) : Host.Outcome State Fault Refusal := .next (ctxRun (ctxOpGet d x) s)

/-- Cput in the running activation (R239, R237). -/
def execCput (x : PutSel) (a : CIx) (s : State) : Host.Outcome State Fault Refusal := .next (ctxRun (ctxOpPut x a) s)

/-- Cadd in the running activation (R239, R237). -/
def execCadd (d a : CIx) (o : Op2) (s : State) : Host.Outcome State Fault Refusal := .next (ctxRun (ctxOpAdd d a o) s)

/-- Csub in the running activation (R239, R237). -/
def execCsub (d a : CIx) (o : Op2) (s : State) : Host.Outcome State Fault Refusal := .next (ctxRun (ctxOpSub d a o) s)

/-- Cmul in the running activation (R239, R237). -/
def execCmul (d a : CIx) (o : Op2) (s : State) : Host.Outcome State Fault Refusal := .next (ctxRun (ctxOpMul d a o) s)

/-- Cand in the running activation (R239, R237). -/
def execCand (d a : CIx) (o : Op2) (s : State) : Host.Outcome State Fault Refusal := .next (ctxRun (ctxOpAnd d a o) s)

/-- Cor in the running activation (R239, R237). -/
def execCor (d a : CIx) (o : Op2) (s : State) : Host.Outcome State Fault Refusal := .next (ctxRun (ctxOpOr d a o) s)

/-- Cshl in the running activation (R239, R237). -/
def execCshl (d a : CIx) (o : Op2) (s : State) : Host.Outcome State Fault Refusal := .next (ctxRun (ctxOpShl d a o) s)

/-- Cshr in the running activation (R239, R237). -/
def execCshr (d a : CIx) (o : Op2) (s : State) : Host.Outcome State Fault Refusal := .next (ctxRun (ctxOpShr d a o) s)

/-- Cmin in the running activation (R239, R237). -/
def execCmin (d a : CIx) (o : Op2) (s : State) : Host.Outcome State Fault Refusal := .next (ctxRun (ctxOpMin d a o) s)

/-- Cmax in the running activation (R239, R237). -/
def execCmax (d a : CIx) (o : Op2) (s : State) : Host.Outcome State Fault Refusal := .next (ctxRun (ctxOpMax d a o) s)

/-- Cfadd in the running activation (R240, R237). -/
def execCfadd (d a : CIx) (o : Op2) (s : State) : Host.Outcome State Fault Refusal := .next (ctxRun (ctxOpFadd d a o) s)

/-- Cfmul in the running activation (R240, R237). -/
def execCfmul (d a : CIx) (o : Op2) (s : State) : Host.Outcome State Fault Refusal := .next (ctxRun (ctxOpFmul d a o) s)

/-- Cfmax in the running activation (R240, R237). -/
def execCfmax (d a : CIx) (o : Op2) (s : State) : Host.Outcome State Fault Refusal := .next (ctxRun (ctxOpFmax d a o) s)

/-- Ccmp in the running activation (R241, R237). -/
def execCcmp (c : CCond) (a : CIx) (o : Op2) (s : State) : Host.Outcome State Fault Refusal := .next (ctxRun (ctxOpCmp c a o) s)

/-- Cjmp in the running activation (R241, R237). -/
def execCjmp (c : JCond) (t : BitVec 6) (s : State) : Host.Outcome State Fault Refusal := .next (ctxRun (ctxOpJmp c t) s)

/-- Cnb in the running activation (R242, R237). -/
def execCnb (d : CIx) (o : Op2) (s : State) : Host.Outcome State Fault Refusal := .next (ctxRun (ctxOpNb d o) s)

/-- Cin in the running activation (R242, R237). -/
def execCin (d : CIx) (s : State) : Host.Outcome State Fault Refusal := .next (ctxRun (ctxOpIn d) s)

/-- Cout in the running activation (R242, R237). -/
def execCout (a : CIx) (s : State) : Host.Outcome State Fault Refusal := .next (ctxRun (ctxOpOut a) s)

/-- Cwe in the running activation (R243, R237). -/
def execCwe (a : CIx) (t : BitVec 6) (s : State) : Host.Outcome State Fault Refusal := .next (ctxRun (ctxOpWe a t) s)

/-- Cws in the running activation (R243, R237). -/
def execCws (k : Fin 16) (s : State) : Host.Outcome State Fault Refusal := .next (ctxRun (ctxOpWs k) s)

/-- Cww in the running activation (R243, R237). -/
def execCww (o : Op2) (s : State) : Host.Outcome State Fault Refusal := .next (ctxRun (ctxOpWw o) s)

/-- Csig in the running activation (R244, R237). -/
def execCsig (k : Fin 4) (s : State) : Host.Outcome State Fault Refusal := .next (ctxRun (ctxOpSig k) s)

/-- Cdone in the running activation (R244, R237). -/
def execCdone (s : State) : Host.Outcome State Fault Refusal := .next (ctxRun ctxOpDone s)

/-- Cflt in the running activation (R244, R237). -/
def execCflt (code : BitVec 8) (s : State) : Host.Outcome State Fault Refusal := .next (ctxRun (ctxOpFlt code) s)

/-! ### The meanings: each instruction alone in its pair -/

/-- Swdecl (R236, R235, R76, R301). -/
def execSwdecl (d a : GIx) (s : State) : Host.Outcome State Fault Refusal :=
  .next (issueOne (planSwdecl d a s) s)

/-- Swbind (R245). -/
def execSwbind (d a b : GIx) (s : State) : Host.Outcome State Fault Refusal :=
  .next (issueOne (planSwbind d a b s) s)

/-- Swrun (R255, R181, R247, R246). -/
def execSwrun (a b : GIx) (s : State) : Host.Outcome State Fault Refusal :=
  .next (issueOne (planSwrun a b s) s)

/-- Swwake (R248, R258). -/
def execSwwake (a b : GIx) (s : State) : Host.Outcome State Fault Refusal :=
  .next (issueOne (planSwwake a b s) s)

/-- Swstat (R249). -/
def execSwstat (d a : GIx) (s : State) : Host.Outcome State Fault Refusal :=
  .next (issueOne (planSwstat d a s) s)

end Sys2Proof.Machine
end

