-- ==== Sys2Proof/Machine/System.lean ====
section
/-! DEFINITION. System instructions (13, R263 to R275; 01, R17 to R30) and the events of the control registers, the
memories' upkeep, power and sampling (18, R307 to R323; 23, R383, R384; 24, R397). -/

namespace Sys2Proof.Machine

/-! ### Control registers (R17, R265) -/

/-- The supervisor registers (R265). -/
def sysReg : CReg → Bool
  | .elsel | .elog | .wsfrz | .sampctl | .pcntclr => true
  | _ => false

/-- The registers that are not a slot's own (R17, R265). -/
def sharedReg : CReg → Bool
  | .mfmt | .dpat | .tline _ | .mbstat | .wsphase | .elog | .wsfrz | .sampctl | .pcntclr => true
  | _ => false

/-- MBSTAT (R29). -/
def Core.mbstat (c : Core) : Nat := min c.lost 0xFF * 2 ^ 8 + c.sealed.toNat * 2 ^ 6 + min c.mailbox.length 32

/-- WSPHASE of a die (R30; log 3). -/
def State.wsphase (s : State) (die : Nat) : Nat :=
  let x := s.clk * 5 / 8 + Config.refreshPhase die
  x % 500 * 2 ^ 6 + x / 500 % 64

/-- ELOG under a value of ELSEL (R266, R267). -/
def Core.elog (c : Core) (sel : BitVec 5) : Word := (c.ecx[Fin.ofNat 4 (sel.toNat / 8)]).errs.getD (sel.toNat % 8) 0

/-- What CRD reads (R265). A read of PCNTCLR, which is write-only, returns zero (R7). -/
def State.cregValue (s : State) (r : CReg) : Word := match r with
  | .rnd => s.ctx.rnd.zeroExtend 64
  | .cmask => s.ctx.cmask.zeroExtend 64
  | .sstat => s.ctx.sstat.zeroExtend 64
  | .minrank => BitVec.ofNat 64 s.ctx.minRank
  | .tid => s.ctx.tid.zeroExtend 64
  | .rgn => s.ctx.rgn.zeroExtend 64
  | .wch => s.ctx.wch.zeroExtend 64
  | .ecxsel => s.ctx.ecxsel.zeroExtend 64
  | .pc => s.ctx.pc
  | .lm => s.ctx.lm
  | .mode => BitVec.ofNat 64 s.ctx.mode.toNat
  | .mfmt => s.cur.mfmt.zeroExtend 64
  | .dpat => s.cur.dpat.zeroExtend 64
  | .tline n => BitVec.ofNat 64 (s.cur.ecx[n]).line
  | .mbstat => BitVec.ofNat 64 s.cur.mbstat
  | .wsphase => BitVec.ofNat 64 (s.wsphase (dieOfCore s.core))
  | .elsel => s.ctx.elsel.zeroExtend 64
  | .elog => s.cur.elog s.ctx.elsel
  | .wsfrz => BitVec.ofNat 64 (s.dieAt (dieOfCore s.core)).wsfrz.toNat
  | .sampctl => s.hub.sampctl.zeroExtend 64
  | .pcntclr => 0

/-- A plan whose results an outside source gives (R380). -/
def readOut (s : State) (d : GIx) (v : Word) : Plan := outside s [v] fun ws t => t.writeG d (ws.headD 0)

/-- R265, R10, R17. -/
def planCrd (d : GIx) (r : CReg) (s : State) : Plan :=
  gated s [] [] [d] [] (
    if sysReg r && !s.ctx.mode then .trap (Trap.plain Cause.priv)
    else readOut s d (s.cregValue r))

/-- The core-wide counters cleared (R269, R275). -/
def State.clearCounters (s : State) (n : Nat) : State :=
  let m := (s.clusterAt (clusterOfCore n)).pcnt4
  s.modCore n fun c => { c with pcnt2 := 0, pcnt3 := 0, pcnt4At := m, pcnt5 := 0, pcnt6 := 0, pcnt7 := 0 }

/-- A write of WSFRZ (R268): the cores' copies change on their own (R308). -/
def State.setWsfrz (s : State) (die : Nat) (b : Bool) : State := s.modDie die fun d => { d with wsfrz := b }

/-- A write of SAMPCTL (R269, R383): with EN = 1 and N outside 10 to 24 nothing changes. -/
def State.setSampctl (s : State) (v : BitVec 8) : State :=
  let n := v.toNat % 32
  if v.getLsbD 7 ∧ (n < 10 ∨ 24 < n) then s
  else
    let s1 := s.modHub fun h => { h with sampctl := v &&& 0x9F }
    [0, 1, 2, 3].foldl (fun s d => s.modDie d fun x => { x with ring := { x.ring with seq := 0, full := true } }) s1

/-- A CWR's effect (R17, R18, R20, R24, R29). `keep` are SSTAT bits that the pair itself sets. -/
def State.cregWrite (s : State) (r : CReg) (w : Word) (keep : Flags) : State := match r with
  | .rnd => s.modCtx fun c => { c with rnd := w.truncate 5 }
  | .cmask => s.modCtx fun c => { c with cmask := w.truncate 24 }
  | .sstat => s.modCtx fun c => { c with sstat := (c.sstat &&& ~~~(w.truncate 9)) ||| keep }
  | .ecxsel => s.modCtx fun c => { c with ecxsel := w.truncate 2 }
  | .lm => s.modCtx fun c => { c with lm := w }
  | .elsel => s.modCtx fun c => { c with elsel := w.truncate 5 }
  | .dpat => s.modCur fun c => { c with dpat := w.truncate 29 }
  | .mbstat => if w.toNat / 2 ^ 8 % 2 ^ 8 = 0 then s else s.modCur fun c => { c with lost := 0 }
  | .wsfrz => s.setWsfrz (dieOfCore s.core) (w.getLsbD 0)
  | .sampctl => s.setSampctl (w.truncate 8)
  | .pcntclr => if w.getLsbD 0 then s.clearCounters s.core else s
  | .minrank | .tid | .rgn | .wch | .pc | .mode | .mfmt | .tline _ | .wsphase | .elog => s

/-- R265, R10, R17, R18: SSTAT is cleared as its source is read, so that what the pair itself sets stays set, DEADRD by the
reading of g(d) too. -/
def planCwr (d : GIx) (r : CReg) (s : State) : Plan :=
  let keep := flagIf (s.ctx.g[d].d && (s.ctx.portOf d).isNone) Flag.deadrd
  let p := gated s [d] [] [] [] (
    if sysReg r && !s.ctx.mode then .trap (Trap.plain Cause.priv)
    else if r = .sstat then .commit (fun t => t.cregWrite r (s.gv d) keep) id fun _ t => t
    else .act fun t => t.cregWrite r (s.gv d) keep)
  if sharedReg r then effect s [d] [] true p else p

/-! ### Other tasks' contexts (R264, R270 to R272) -/

/-- The living task that g(a) names, with the issuer's authority over it (R264). -/
def targetOf (s : State) (w : Word) : Except Trap (Option (BitVec 48)) :=
  let tid : BitVec 48 := w.truncate 48
  if w.toNat / 2 ^ 48 ≠ 0 ∨ tid = s.ctx.tid then .error (Trap.plain Cause.protection)
  else match s.taskCtx tid with
    | none => .ok none
    | some (_, c) =>
      if s.ctx.mode || (s.ctx.supervisor && s.descends s.ctx.rcb 64 c.rcb) then .ok (some tid)
      else .error (Trap.plain Cause.protection)

/-- The target of a CTXRD or CTXWR: in state 8 (R270). -/
def stoppedTarget (s : State) (w : Word) : Except Trap (Nat × Fin 16) := match targetOf s w with
  | .error t => .error t
  | .ok none => .error (Trap.plain Cause.protection)
  | .ok (some tid) => match s.findTask tid with
    | some (n, i) => if (s.slotAt n i).st = .faulted then .ok (n, i) else .error (Trap.plain Cause.protection)
    | none => .error (Trap.plain Cause.protection)

/-- The registers that a selector can name (R270). -/
inductive CtxSel
  | g (r : GIx) | pw | lm | pc | rnd | cmask | sstat | wch | ecxsel | presence | minrank | tid | rgn | v (r : VIx) (w : Fin 8)
  deriving DecidableEq, Repr

/-- A selector (R270). -/
def ctxSel (w : Nat) : Option CtxSel :=
  if w < 0x10 then some (.g (Fin.ofNat 16 w))
  else if 0x20 ≤ w ∧ w < 0x60 then some (.v (Fin.ofNat 8 ((w - 0x20) / 8)) (Fin.ofNat 8 w))
  else match w with
    | 0x10 => some .pw
    | 0x11 => some .lm
    | 0x12 => some .pc
    | 0x13 => some .rnd
    | 0x14 => some .cmask
    | 0x15 => some .sstat
    | 0x16 => some .wch
    | 0x17 => some .ecxsel
    | 0x18 => some .presence
    | 0x19 => some .minrank
    | 0x1A => some .tid
    | 0x1B => some .rgn
    | _ => none

/-- Is the register that a selector names Pending (R270)? -/
def Ctx.selPending (c : Ctx) : CtxSel → Bool
  | .g r => c.g[r].pending
  | .v r _ => c.v[r].pending
  | _ => false

/-- A list of bits as a number, bit 0 first. -/
def bitsNat : List Bool → Nat
  | [] => 0
  | b :: l => b.toNat + 2 * bitsNat l

/-- The presence word (R270). -/
def Ctx.presence (c : Ctx) : Word :=
  BitVec.ofNat 64 (bitsNat (c.g.toList.map (·.f)) + bitsNat (c.g.toList.map (·.d)) * 2 ^ 16 + bitsNat (c.v.toList.map (·.f)) * 2 ^ 32 +
    bitsNat (c.v.toList.map (·.d)) * 2 ^ 40)

/-- What CTXRD reads (R270): a Dead register reads as zero. -/
def Ctx.selRead (c : Ctx) : CtxSel → Word
  | .g r => if c.g[r].d then 0 else c.g[r].val
  | .pw => c.pw.zeroExtend 64
  | .lm => c.lm
  | .pc => c.pc
  | .rnd => c.rnd.zeroExtend 64
  | .cmask => c.cmask.zeroExtend 64
  | .sstat => c.sstat.zeroExtend 64
  | .wch => c.wch.zeroExtend 64
  | .ecxsel => c.ecxsel.zeroExtend 64
  | .presence => c.presence
  | .minrank => BitVec.ofNat 64 c.minRank
  | .tid => c.tid.zeroExtend 64
  | .rgn => c.rgn.zeroExtend 64
  | .v r w => if c.v[r].d then 0 else BitVec.ofNat 64 (c.v[r].val.toNat / 2 ^ (64 * w.val))

/-- May WCH of a task take this value (R224)? -/
def State.wchOk (s : State) (tid : BitVec 48) (v : Nat) : Bool :=
  v / 2 ^ 16 == 0 && v / 2 ^ 12 % 8 == 0 && (v / 2 ^ 15 == 0 || match tabGet (s.dieAt (v / 1024 % 4)).chans (v % 1024) with
    | some c => c.tid == tid && c.live && !c.failed
    | none => false)

/-- What CTXWR refuses (R270). -/
def ctxwrFault (s : State) (c : Ctx) (x : CtxSel) (v : Word) : Option Trap := match x with
  | .presence | .minrank | .tid | .rgn => some (Trap.plain Cause.protection)
  | .pc => failIf (v.toNat % 8 != 0) (Trap.at_ Cause.misalign v)
  | .wch => failIf (!s.wchOk c.tid v.toNat) (Trap.plain Cause.channel)
  | _ => none

/-- What CTXWR writes (R270). -/
def Ctx.selWrite (c : Ctx) (x : CtxSel) (v : Word) : Ctx := match x with
  | .g r => c.setG r v
  | .pw => { c with pw := (v.truncate 16) ||| 1 }
  | .lm => { c with lm := v }
  | .pc => { c with pc := v }
  | .rnd => { c with rnd := v.truncate 5 }
  | .cmask => { c with cmask := v.truncate 24 }
  | .sstat => { c with sstat := c.sstat &&& ~~~(v.truncate 9) }
  | .wch => { c with wch := v.truncate 16 }
  | .ecxsel => { c with ecxsel := v.truncate 2 }
  | .v r w =>
    let old : VWord := if c.v[r].d then 0 else c.v[r].val
    c.setV r (setLaneBytes 8 old w.val v.toNat)
  | .presence | .minrank | .tid | .rgn => c

/-- The task of a slot changed, in both copies of a redundant task (R379). -/
def State.modBoth (s : State) (n : Nat) (i : Fin 16) (f : Ctx → Ctx) : State :=
  let s1 := s.modCtxAt n i f
  if s.isRdt (s.ctxAt n i).rcb then s1.modCtxAt n (Fin.ofNat 16 (i.val + 8)) f else s1

/-- A stopped task resumed, in both copies of a redundant task (R271, R379). -/
def State.resumeBoth (s : State) (n : Nat) (i : Fin 16) : State :=
  let s1 := s.resumeTask n i
  if s.isRdt (s.ctxAt n i).rcb then s1.resumeTask n (Fin.ofNat 16 (i.val + 8)) else s1

/-- R270: a plain access, which the target's core answers. -/
def planCtxrd (d a b : GIx) (s : State) : Plan :=
  effect s [a, b] [d] true (gated s [a, b] [] [d] [] (
    if s.plainBlocked then .park .mem
    else asked s .home (match stoppedTarget s (s.gv a) with
      | .error t => .trap t
      | .ok (n, i) => match ctxSel (s.gv b).toNat with
        | none => .trap (Trap.plain Cause.format)
        | some x =>
          if (s.ctxAt n i).selPending x then .park .mem
          else objAct fun t => t.writeG d ((s.ctxAt n i).selRead x))))

/-- R270: a plain access, which the target's core answers. -/
def planCtxwr (d a b : GIx) (s : State) : Plan :=
  effect s [a, b, d] [] true (gated s [a, b, d] [] [] [] (
    if s.plainBlocked then .park .mem
    else asked s .home (match stoppedTarget s (s.gv a) with
      | .error t => .trap t
      | .ok (n, i) => match ctxSel (s.gv b).toNat with
        | none => .trap (Trap.plain Cause.format)
        | some x => match ctxwrFault s (s.ctxAt n i) x (s.gv d) with
          | some t => .trap t
          | none =>
            if (s.ctxAt n i).selPending x || !s.settledBoth n i then .park .mem
            else objAct fun t => t.modBoth n i fun c => c.selWrite x (s.gv d))))

/-- R271: a plain access, which the target's core answers. -/
def planResume (a : GIx) (s : State) : Plan :=
  effect s [a] [] true (gated s [a] [] [] [] (
    if s.plainBlocked then .park .mem
    else match targetOf s (s.gv a) with
      | .error t => .trap t
      | .ok none => asked s .home (objAct id)
      | .ok (some tid) => asked s .home (match s.findTask tid with
        | some (n, i) =>
          if (s.slotAt n i).st = .faulted && !s.settledBoth n i then .park .mem else objAct fun t => t.resumeBoth n i
        | none => objAct id)))

/-! ### KILL (R204, R272) -/

/-- The entries of a killed task: straight to a killer that is a supervisor task of the heir region, otherwise to the
heir of the killer's region with reason 1 (R204). -/
def State.killTakes (s : State) : Bool := s.ctx.supervisor && decide (s.heirOf 64 s.ctx.rcb = some s.ctx.rcb)
/-- They pass. -/
def State.killPass (s : State) (tid : BitVec 48) (core : Nat) (l : List Obl) : State :=
  if s.killTakes then (s.pokeAll l).modCtx fun c => { c with obls := l.foldl s.mergeObl c.obls }
  else s.passToHeir s.ctx.rcb tid 1 core l

/-- The first entry of a list that has no place in a registry which takes them all (R186). -/
def State.overflow (s : State) (acc : List Obl) : List Obl → Option Obl
  | [] => none
  | o :: l => if registryRoom acc o.ref then s.overflow (s.mergeObl acc o) l else some o

/-- The entry of the killed task that the killer's own registry has no place for, where it is to take them (R186, R204). -/
def State.killOver (s : State) (tid : BitVec 48) : Option Obl :=
  if s.killTakes then (s.taskCtx tid).bind fun e => s.overflow s.ctx.obls (e.2.obls.filter (·.isLocal)) else none

/-- What a task that ends was still about to do elsewhere is dropped: its wait, a SEND that no slot has claimed, and a channel
whose handshake has not ended, which opens for nobody (R197, R217, R368; log 26). -/
def State.recall (s : State) (tid : BitVec 48) : State :=
  let s1 := s.withdraw tid
  { s1 with
    cores := s1.cores.map fun e => (e.1, { e.2 with msgs := e.2.msgs.filter fun m => m.sender != some tid })
    dies := s1.dies.map fun e => (e.1, { e.2 with chans := e.2.chans.map fun x =>
      (x.1, if x.2.tid == tid && !x.2.live then { x.2 with gone := true } else x.2) }) }

/-- A REGPUT that has issued joins the fills of its target, whoever has ended meanwhile, unless it is there already (R177,
R272). -/
def State.flushFill (s : State) (rcb : Word) (id core : Nat) (slot : Fin 16) (reg : GIx) (v : Word) : State :=
  let t := s.coreAt core
  let sl := t.slots[slot]
  if t.contained || sl.st == .empty || sl.ctx.rcb != rcb || (sl.ctx.portOf reg).isSome || t.fills.any (fun f => f.src.any fun x => x.2.2 == id)
  then s
  else s.modCore core fun c => { c with fills := c.fills ++ [{ slot := slot, reg := reg, val := v, rcb := rcb, src := none, eng := none }] }

/-- What an outstanding operation of a task that ends still does elsewhere: a store, an atomic, an MCST or a REGPUT that has
issued is performed, and only its result is dropped (R272). -/
def State.flushAcc (s : State) (core : Nat) (rcb : Word) (a : Access) : State := match a.op with
  | .store n els wch _ => s.storeRest core n wch els a.done
  | .atomic _ op (.mem k) _ => match s.dataFault k op.w false, (op.result (s.load k op.w)).1 with
    | none, some v => s.store k op.w v
    | _, _ => s
  | .mcst wch off k size _ => s.sendWrite core wch off ((List.range size).map fun j => s.byte (k + j))
  | .fill c slot reg v => s.flushFill rcb a.id c slot reg v
  | _ => s

/-- A queued request of a task that ends is carried through: its reads, its tile's result and its writes; where its data are
uncorrectable, the tile's contents are free (R141, R144, R272). -/
def State.flushReq (s : State) (n : Nat) (r : MxReq) : State :=
  let todo := (r.reads n).zipIdx.filter fun p => !r.seen.contains p.2
  if todo.any fun p => (s.dataFault p.1.1 p.1.2.1 false).isSome then match r.op.loses with
    | some t => { s.setTile n t (freeTileOf s.free r.shape (s.coreAt n).tiles[t]) with free := s.free + 1 }
    | none => s
  else match r.op with
    | .tst t esz els _ =>
      let l := if r.started then (els.filterMap id).zip (r.got.map (·.toNat)) else ((s.coreAt n).tiles[t] : TileData).stored r.shape els
      (s.performStores n esz 0 ((l.zipIdx.filter fun e => !r.seen.contains e.2).map (·.1)) none).1
    | _ => s.endOp n (todo.foldl (fun q p =>
      { q with seen := q.seen ++ [p.2], got := q.got ++ [BitVec.ofNat 64 (s.load p.1.1 p.1.2.1)] }) r)

/-- A task in a slot that ends by KILL or containment: the slot is in state 13; what it has issued is performed, its matrix
operations write their results and set no flag, and what would return to it is discarded (R141, R272, R374). -/
def State.flushTask (s : State) (n : Nat) (i : Fin 16) : State :=
  let c := s.ctxAt n i
  let rdt := s.isRdt c.rcb
  let mine := fun (r : MxReq) => r.slot == i || (rdt && r.slot == trailSlot i)
  let end_ := fun (s : State) (j : Fin 16) => (s.setSt n j .ending).modCtxAt n j fun c => { c with accs := [] }
  let s1 := c.accs.foldl (fun s a => s.flushAcc n c.rcb a) s
  let s2 := if rdt then end_ (end_ s1 i) (trailSlot i) else end_ s1 i
  let s3 := ((s2.coreAt n).mxq.filter mine).foldl (fun s r => s.flushReq n r) s2
  (s3.modCore n fun x => { x with mxq := x.mxq.filter fun r => !mine r }).wakeMatrix n

/-- The fills that are still to reach a slot whose task ends are refused (R177; log 55). -/
def State.refuseSlotFills (s : State) (n : Nat) (i : Fin 16) : State :=
  ((s.coreAt n).fills.filter fun f => f.slot == i).foldl (fun s f => s.endFill f.src (some Cause.protection))
    (s.modCore n fun x => { x with fills := x.fills.filter fun f => f.slot != i })

/-- KILL of a task in a slot, in the order of R272. -/
def State.killSlot (s : State) (n : Nat) (i : Fin 16) : State :=
  let c := s.ctxAt n i
  let s1 := (((s.flushTask n i).refuseSlotFills n i).recall c.tid).modCore n (releaseTiles i)
  let s2 := s1.closeAll n i (some 0xFB)
  let l := (s2.ctxAt n i).obls.filter (·.isLocal)
  (s2.vacate n i).killPass c.tid n l

/-- A channel of a task that has no slot closes: a FAILED one without sending (R226). -/
def State.closeSaved (s : State) (core h : Nat) (code : Nat) : State :=
  let failed := ((tabGet (s.dieAt (h / 1024 % 4)).chans (h % 1024)).map (·.failed)).getD true
  (if failed then s else s.releaseChan core h none true (some code)).modDie (h / 1024 % 4) fun d =>
    { d with chans := tabDel d.chans (h % 1024) }

/-- The channels of a task that holds no slot close with a poisoning release (R226). -/
def State.closeOff (s : State) (n : Nat) (tid : BitVec 48) (code : Nat) : State :=
  (s.handlesOf tid).foldl (fun s h => s.closeSaved n h code) s

/-- A task is taken from wherever its core holds it off a slot (R272, R374). -/
def Core.dropOff (c : Core) (tid : BitVec 48) : Core :=
  { c with
    runq := c.runq.filter fun k => k.ctx.tid != tid
    launches := c.launches.filter fun k => k.ctx.tid != tid
    images := c.images.filter fun k => k.ctx.tid != tid }

/-- A task that holds no slot ends: what it has issued is performed, its wait is withdrawn, its place is freed, and its channels
close with a poisoning release (R226, R272, R374). -/
def State.endOff (s : State) (n : Nat) (c : Ctx) (code : Nat) : State :=
  (((c.accs.foldl (fun s a => s.flushAcc n c.rcb a) s).recall c.tid).modCore n (·.dropOff c.tid)).closeOff n c.tid code

/-- KILL of a task that holds no slot: its queue entry or image is freed (R272). -/
def State.killSaved (s : State) (tid : BitVec 48) : State :=
  s.cores.foldl (fun s e =>
    (e.2.offSlot.filter fun c => c.tid == tid).foldl
      (fun s c => (s.endOff e.1 c 0xFB).killPass tid e.1 (c.obls.filter (·.isLocal))) s) s

/-- KILL of the task with a TID; a TID of no living task does nothing (R264). -/
def State.killTask (s : State) (tid : BitVec 48) : State := match s.findTask tid with
  | some (n, i) => s.killSlot n i
  | none => s.killSaved tid

/-- R272: the issuer parks in state 3, and the steps of KILL are done at the instant at which it goes on (log 5). Where the
entries go straight into the killer's registry and one finds no place there, KILL faults and ends nothing (R186, R204). -/
def planKill (a : GIx) (s : State) : Plan :=
  effect s [a] [] true (gated s [a] [] [] [] (
    if s.plainBlocked then .park .mem
    else match targetOf s (s.gv a) with
      | .error t => .trap t
      | .ok none => Plan.nop
      | .ok (some tid) => asked s .home (match s.killOver tid with
        | some o => .trap (objTrap Cause.objOversub o.addr o.rank.toNat s.ctx.minRank)
        | none => .act fun t => t.killTask tid)))

/-! ### Translation, time and counters (R273 to R275) -/

/-- The entries that a TLBINV drops (R273). A page under the apertures has no entry. -/
def tlbMatch (s : State) (va : Nat) (rgn kind : Nat) (e : TlbEntry) : Bool :=
  let under := s.hub.regions.any fun r => s.rcbRgn r == rgn && s.ptRoot r == e.root
  match kind with
  | 0 => under && decide (e.va ≤ va) && decide (va < e.va + e.size)
  | 1 => under
  | _ => true

/-- The cached pairs that a TLBINV drops: those under the roots that KIND 01 or 10 covers (R319). -/
def cacheMatch (s : State) (rgn kind : Nat) (e : Cached) : Bool := match kind with
  | 0 => false
  | 1 => s.hub.regions.any fun r => s.rcbRgn r == rgn && s.ptRoot r == e.root
  | _ => true

/-- R273, R319: the issuer parks in state 3 until every cluster has dropped the entries. -/
def planTlbinv (a b : GIx) (s : State) : Plan :=
  let w := (s.gv b).toNat
  let va := (s.gv a).toNat % 2 ^ 56
  effect s [a, b] [] true (gated s [a, b] [] [] [] (
    if s.plainBlocked then .park .mem
    else if !s.ctx.mode then .trap (Trap.plain Cause.priv)
    else if w / 2 ^ 26 ≠ 0 ∨ w / 2 ^ 24 % 4 = 3 then .trap (Trap.plain Cause.format)
    else asked s .home (.act fun t => { t with
        clusters := t.clusters.map fun e => (e.1, { e.2 with
          tlb := e.2.tlb.filter fun x => !tlbMatch s va (w % 2 ^ 24) (w / 2 ^ 24 % 4) x })
        cores := t.cores.map fun e => (e.1, { e.2 with
          icache := e.2.icache.filter fun x => !cacheMatch s (w % 2 ^ 24) (w / 2 ^ 24 % 4) x }) })))

/-- R274. -/
def planRdtime (d : GIx) (s : State) : Plan := gated s [] [] [d] [] (readOut s d s.time)
/-- R274. -/
def planRdcyc (d : GIx) (s : State) : Plan := gated s [] [] [d] [] (readOut s d (BitVec.ofNat 64 (s.clk - max s.cur.resetClk s.hub.warmClk)))

/-- An event count (R275). -/
def State.count (s : State) (k : Nat) : Nat := match k with
  | 0 => s.ctx.pcnt0
  | 1 => s.ctx.pcnt1
  | 2 => s.cur.pcnt2
  | 3 => s.cur.pcnt3
  | 4 => (s.clusterAt s.cluster).pcnt4 - s.cur.pcnt4At
  | 5 => s.cur.pcnt5
  | 6 => s.cur.pcnt6
  | _ => s.cur.pcnt7

/-- R275. -/
def planPcnt (d a : GIx) (s : State) : Plan :=
  gated s [a] [] [d] [] (
    if 8 ≤ (s.gv a).toNat then .trap (Trap.plain Cause.format)
    else readOut s d (BitVec.ofNat 64 (s.count (s.gv a).toNat)))

/-! ### Events -/

/-- WSFRZ_WRITE (R268). -/
def execWsfrzWrite (die : Fin 4) (b : Bool) (s : State) : Host.Outcome State Fault Refusal := .next (s.setWsfrz die.val b)

/-- WSFRZ_COPY_UPDATE: a core's copy of a freeze bit follows the die's (R308). -/
def execWsfrzCopyUpdate (core : Nat) (die : Fin 4) (s : State) : Host.Outcome State Fault Refusal :=
  .next (s.modCore core fun c => { c with frz := c.frz.set die (s.dieAt die.val).wsfrz })

/-- SAMPCTL_WRITE (R269). -/
def execSampctlWrite (v : BitVec 8) (s : State) : Host.Outcome State Fault Refusal := .next (s.setSampctl v)

/-- PCNTCLR (R269, R275). -/
def execPcntclr (core : Nat) (s : State) : Host.Outcome State Fault Refusal := .next (s.clearCounters core)

/-- PAGE_WALK: a walk that finds a leaf leaves it in the cluster's TLB, 1,024 at most (R316, R317). No walk reads the entries of
the apertures (R314). -/
def execPageWalk (cluster : Nat) (root va : Word) (s : State) : Host.Outcome State Fault Refusal :=
  .next (if underAperture va.toNat then s else match s.walk root (va.toNat % 2 ^ 56) levels root.toNat with
    | .error _ => s
    | .ok e => s.modCluster cluster fun c => { c with tlb := (e :: c.tlb.filter fun x => x != e).take 1024 })

/-- The bytes after the first of a slot's entry, for a PC and the PC of the previous pulse (R384): the form and the
bytes. -/
def pcForm (pc prev : Word) : Nat × List Byte :=
  let d := (pc - prev).toInt
  let k := d / 8
  let fits := fun (n : Nat) => d % 8 = 0 ∧ -(2 ^ (n - 1) : Int) ≤ k ∧ k < 2 ^ (n - 1)
  if d = 0 then (0, [])
  else if fits 8 then (1, bytesLE 1 (BitVec.ofInt 8 k).toNat)
  else if fits 16 then (2, bytesLE 2 (BitVec.ofInt 16 k).toNat)
  else if fits 32 then (3, bytesLE 4 (BitVec.ofInt 32 k).toNat)
  else (4, bytesLE 8 pc.toNat)

/-- The entry of a slot in a sample record (R384). -/
def sampleEntry (full : Bool) (sl : Slot) : List Byte :=
  if sl.st = .empty then [0]
  else
    let prev := if full then none else sl.sample.bind fun x => if x.2.2 = sl.ctx.tid then some x.2.1 else none
    match prev with
    | some pc =>
      let f := pcForm sl.ctx.pc pc
      BitVec.ofNat 8 (sl.st.code.toNat + f.1 * 16) :: f.2
    | none => BitVec.ofNat 8 (sl.st.code.toNat + 4 * 16 + 128) :: (bytesLE 6 sl.ctx.tid.toNat ++ bytesLE 8 sl.ctx.pc.toNat)

/-- The slots of a die, core 0 slot 0 first (R383). -/
def State.dieSlots (s : State) (die : Nat) : List Slot := (List.range 512).flatMap fun k => (s.coreAt (die * 512 + k)).slots.toList

/-- The size of a sample ring (R383). -/
def ringSize : Nat := 64 * 2 ^ 20

/-- A die writes the record of a pulse (R383). -/
def State.sampleDie (s : State) (die : Nat) : State :=
  let r := (s.dieAt die).ring
  let body := (s.dieSlots die).flatMap (sampleEntry r.full)
  let len := (32 + body.length + 63) / 64 * 64
  let head := bytesLE 8 (r.seq + 1) ++ bytesLE 8 s.time.toNat ++
    bytesLE 8 (die + (s.hub.sampctl.toNat % 32) * 2 ^ 8 + r.full.toNat * 2 ^ 16 + len * 2 ^ 32) ++ bytesLE 8 0
  let off := if ringSize < r.off + len then 0 else r.off
  let s1 := s.storeBytes (r.base.toNat + off) (head ++ body ++ List.replicate (len - 32 - body.length) 0)
  s1.modDie die fun d => { d with ring := { d.ring with seq := r.seq + 1, off := off + len, full := false } }

/-- SAMPLING_PULSE: every core latches its slots, and each die writes a record (R383, R384). -/
def execSamplingPulse (s : State) : Host.Outcome State Fault Refusal :=
  .next (if s.hub.sampctl.getLsbD 7 then
    let s1 := [0, 1, 2, 3].foldl State.sampleDie s
    { s1 with cores := s1.cores.map fun e => (e.1, { e.2 with slots := e.2.slots.map fun sl =>
        { sl with sample := if sl.st = .empty then none else some (sl.st.code, sl.ctx.pc, sl.ctx.tid) } }) }
    else s)

/-- Does a word lie in a bank of a die's weight store (R307)? -/
def inBank (die bank : Nat) (w : Option Nat × Nat) : Bool := match w.1 with
  | some _ => false
  | none => spaceOf (w.2 * 8) == .weight die && (w.2 * 8 - 0x8000000000) / 2 ^ 24 % 64 == bank

/-- The words that an outstanding operation of a core reads or writes in this device: a descriptor and the line of an MCST among
them. -/
def Core.touches (x : Core) (a : Access) : List (Option Nat × Nat) := match a.op with
  | .ask (.desc k n) => (Home.mem k).words n
  | .mcst _ _ k n _ => (Home.mem k).words n
  | _ => x.accWords a

/-- The words of the elements that the ports of a task fetch next, and are to write (R169). -/
def State.streamWords (s : State) (n : Nat) (c : Ctx) : List (Option Nat × Nat) :=
  c.portWords s (c.who n) none ++ c.ports.toList.flatMap fun p => match p with
    | some q =>
      if q.wr || q.halted || q.base == 0 || decide (8 ≤ q.fifo.length) || decide (q.count ≤ q.moved) then []
      else (s.reach (c.who n) .read [q.elem q.moved]).flatMap fun h => h.words (2 ^ q.size)
    | none => []

/-- Does an access of a task of a core, a tile access or a port's among them, reach a bank of a die's weight store? -/
def State.reachesBank (s : State) (n : Nat) (c : Ctx) (die bank : Nat) : Bool :=
  (c.accs.any fun a => ((s.coreAt n).touches a).any (inBank die bank)) || (s.streamWords n c).any (inBank die bank)

/-- The clk for which a bank still refreshes: 1 µs from half-microsecond step `bank` of the die's refresh clock (R307, R30). -/
def State.refreshLeft (s : State) (die bank : Nat) : Nat :=
  let p := s.wsphase die
  let step := p % 64
  let ns := p / 64
  if step = bank % 64 then (1000 - ns) * 8 / 5 else if step = (bank + 1) % 64 then (500 - ns) * 8 / 5 else 0

/-- WEIGHT_STORE_REFRESH: while the bank refreshes, an access that has reached it waits, and PCNT 6 of its core counts the
clk, which are free up to the end of the refresh (R307; log 3). -/
def execWeightStoreRefresh (die bank : Nat) (s : State) : Host.Outcome State Fault Refusal :=
  let w := min (Config.refreshWait s.free) (s.refreshLeft die bank)
  .next { s with
    free := s.free + 1
    cores := s.cores.map fun e =>
      let k := (e.2.slots.toList.filter fun sl => s.reachesBank e.1 sl.ctx die bank).length
      (e.1, { e.2 with pcnt6 := e.2.pcnt6 + k * w }) }

/-- DRAM_REFRESH: a refresh changes no value (R310; log 3). -/
def execDramRefresh (_die _chan _bank : Nat) (s : State) : Host.Outcome State Fault Refusal := .next s

/-- TEMPERATURE_CHANGE: the refresh period of a layer (R310). -/
def execTemperatureChange (die : Fin 4) (layer : Fin 8) (celsius : Int) (s : State) : Host.Outcome State Fault Refusal :=
  .next (s.modDie die.val fun d => { d with
    period := if 85 < celsius then d.period.set layer 16 else if celsius < 80 then d.period.set layer 32 else d.period })

/-- SCRUB: what is found in a unit (R321 to R323): by the scrubber, and, since the same rule governs the write-back after a
corrected read (R322), by a read. A correction leaves the unit's data as it reads, and the die counts it. On the second tier it
says that the expander holds the line poisoned (R311, R321); of host memory, which has no unit, that the host completes reads
of the line with an error from now on, or no longer does (log 54). -/
def execScrub (key : Nat) (f : ScrubFind) (s : State) : Host.Outcome State Fault Refusal :=
  .next (match f with
    | .racedByWrite => s
    | .clean => if spaceOf key = .host then s.modHub fun h => { h with hostErrs := h.hostErrs.filter (· != key / 64) } else s
    | .correctable => match dieOfKey key with
      | some d => s.modDie d fun x => { x with corrected := x.corrected + 1 }
      | none => s
    | .uncorrectable => if spaceOf key = .host then s.modHub fun h => { h with hostErrs := (key / 64) :: h.hostErrs.filter (· != key / 64) }
      else s.foundError key 1)

/-- POWER_GRANT: a budget of a die's rail for an interval, in watts, within 2,000 W for the package (R397). It changes no result;
a die that draws more is slower (`State.throttle`). -/
def execPowerGrant (die : Fin 4) (amount : Nat) (s : State) : Host.Outcome State Fault Refusal :=
  let others := (((List.range 4).filter (· != die.val)).map fun d => (s.dieAt d).power).sum
  .next (if others + amount ≤ 2000 then s.modDie die.val fun d => { d with power := amount } else s)

/-! ### The meanings: each instruction alone in its pair -/

/-- Crd (R265, R17, R29, R30, R266, R267, R380, R10). -/
def execCrd (d : GIx) (r : CReg) (s : State) : Host.Outcome State Fault Refusal :=
  .next (issueOne (planCrd d r s) s)

/-- Cwr (R269, R275, R268, R308, R383, R17, R18, R20, R24, R29, R265, R10). -/
def execCwr (d : GIx) (r : CReg) (s : State) : Host.Outcome State Fault Refusal :=
  .next (issueOne (planCwr d r s) s)

/-- Ctxrd (R264, R270, R224, R379, R271). -/
def execCtxrd (d a b : GIx) (s : State) : Host.Outcome State Fault Refusal :=
  .next (issueOne (planCtxrd d a b s) s)

/-- Ctxwr (R270). -/
def execCtxwr (d a b : GIx) (s : State) : Host.Outcome State Fault Refusal :=
  .next (issueOne (planCtxwr d a b s) s)

/-- Resume (R271). -/
def execResume (a : GIx) (s : State) : Host.Outcome State Fault Refusal :=
  .next (issueOne (planResume a s) s)

/-- Kill (R272). -/
def execKill (a : GIx) (s : State) : Host.Outcome State Fault Refusal :=
  .next (issueOne (planKill a s) s)

/-- Tlbinv (R273). -/
def execTlbinv (a b : GIx) (s : State) : Host.Outcome State Fault Refusal :=
  .next (issueOne (planTlbinv a b s) s)

/-- Rdtime (R274). -/
def execRdtime (d : GIx) (s : State) : Host.Outcome State Fault Refusal :=
  .next (issueOne (planRdtime d s) s)

/-- Rdcyc (R274). -/
def execRdcyc (d : GIx) (s : State) : Host.Outcome State Fault Refusal :=
  .next (issueOne (planRdcyc d s) s)

/-- Pcnt (R275). -/
def execPcnt (d a : GIx) (s : State) : Host.Outcome State Fault Refusal :=
  .next (issueOne (planPcnt d a s) s)

end Sys2Proof.Machine
end

