-- ==== Sys2Proof/Machine/Sched.lean ====
section
/-! DEFINITION. The scheduling events: slot claims, pre-emption and the reply catcher (19, R340 to R344), breakpoints
(13, R280; 23, R386) and containment (23, R373 to R376). -/

namespace Sys2Proof.Machine

/-- STARVATION_GUARD: a slot that has been ready without issuing for 240 clk is urgent (R342). -/
def execStarvationGuard (core slot : Nat) (s : State) : Host.Outcome State Fault Refusal :=
  let i : Fin 16 := Fin.ofNat 16 slot
  let sl := s.slotAt core i
  .next (if sl.st = .ready ∧ max sl.since sl.lastIssue + 240 ≤ s.clk then s.modSlot core i fun x => { x with urgent := true }
    else s)

/-! ### Pre-emption (R150, R343) -/

/-- The states of a slot that a pre-emption request may take (R343). -/
def SlotSt.preemptable : SlotSt → Bool
  | .empty | .ending | .shelving | .preempting => false
  | _ => true

/-- PRE_EMPTION: a request from a slot claim or from service firmware. The slot enters state 12 (R343). -/
def execPreEmption (core slot : Nat) (s : State) : Host.Outcome State Fault Refusal :=
  let i : Fin 16 := Fin.ofNat 16 slot
  let sl := s.slotAt core i
  .next (if sl.st.preemptable && !sl.ctx.trail then (s.modSlot core i fun x => { x with was := x.st }).setSt core i .preempting
    else s)

/-- Does a tile belong to slot `i`, or to the trailing copy of its task (R149, R152)? -/
def State.ownsTile (s : State) (n : Nat) (i : Fin 16) (h : Shape) : Bool :=
  h.owner == BitVec.ofNat 4 i.val || (s.isRdt (s.ctxAt n i).rcb && h.owner == BitVec.ofNat 4 (i.val % 8 + 8))

/-- May the state of a slot that is giving its slot up be written (R343 steps 1 to 3; R150)? -/
def State.saveable (s : State) (n : Nat) (i : Fin 16) : Bool :=
  let sl := s.slotAt n i
  let rdt := s.isRdt sl.ctx.rcb
  (sl.st == .preempting || sl.st == .shelving) &&
    !((s.coreAt n).mxq.any fun r => r.slot == i || (rdt && r.slot == trailSlot i)) &&
    (sl.ctx.ports.toList.all fun p => match p with
      | some q => !q.wr || q.halted || q.fifo.isEmpty
      | none => true) && (!rdt || s.level n i)

/-- The tile directory and blocks of a task (R149). -/
def saveTiles (c : Core) (mine : Shape → Bool) (earlier : List SavedTile) : List SavedTile := (List.range 8).map fun t =>
  let t : Fin 8 := Fin.ofNat 8 t
  let sh := c.shapes[t]
  if sh.inuse && mine sh then
    { held := true, shape := sh
      data := if sh.dirty then some c.tiles[t] else if c.zero[t] then none
        else ((earlier.getD t.val SavedTile.init).data).or (some c.tiles[t]) }
  else SavedTile.init

/-- A directory entry (R149). -/
def SavedTile.dirWord (e : SavedTile) : Nat := if e.held then 2 ^ 31 + e.data.isSome.toNat * 2 ^ 30 + e.shape.bits % 2 ^ 18 else 0
/-- A data block: the 256 positions in row-major order (R149). -/
def TileData.block (x : TileData) : List Byte := x.toList.flatMap fun r => r.toList.flatMap fun w => bytesLE 4 w.toNat

/-- The directory and the data blocks of a context area written (R149, R341). -/
def State.writeTiles (s : State) (area : Nat) (l : List SavedTile) : State :=
  l.zipIdx.foldl (fun s e => match e.1.data with
    | some x => s.storeBytes (area + 0x800 + 1024 * e.2) x.block
    | none => s) (s.storeBytes (area + 0x600) (l.flatMap fun e => bytesLE 4 e.dirWord))

/-- The tiles of a task go into its image: until they have, CFG stays 1 and INUSE is 0 (R147, R149). -/
def State.saveBegin (s : State) (n : Nat) (i : Fin 16) : State :=
  let mine := s.ownsTile n i
  let saved := saveTiles (s.coreAt n) mine (s.ctxAt n i).saved
  let c := s.ctxAt n i
  ((s.modCtxAt n i fun c => { c with saved := saved }).modCore n fun c => { c with
    shapes := c.shapes.map fun h => if h.inuse && mine h then { h with inuse := false, dirty := false } else h }).writeTiles c.area
    saved

/-! ### What a task's context area holds of it at every instant (R186, R280, R341) -/

/-- The 32 bytes of a registry entry (R186): 16 bits each of M and AR (log 50). -/
def Obl.words (e : Obl) : List Nat :=
  [e.addr.toNat, e.ph.toNat * 2 ^ 32 + e.rank.toNat, e.ar % 2 ^ 16 * 2 ^ 32 + e.m % 2 ^ 16 * 2 ^ 16 + e.kind.toNat, 0]

/-- The tasks whose context areas the device keeps: a redundant task's trailing copy has none of its own (R378). -/
def State.keptTasks (s : State) : List Ctx := s.cores.flatMap fun e => e.2.tasks.filter fun c => !c.trail
/-- A task as it was, with nothing in its context area if it is new. -/
def State.taskBefore (s : State) (tid : BitVec 48) : Ctx := (s.keptTasks.find? fun c => c.tid == tid).getD Ctx.init

/-- Both copies of a registry that has changed are written (R186): the entries in order from the first place on, the first 4,096
(logs 9, 69), and zeros in the places that entries have left. -/
def State.writeRegistry (s : State) (c : Ctx) (was : List Obl) : State :=
  if c.obls = was then s
  else
    let l := ((c.obls.flatMap Obl.words ++ List.replicate (4 * (was.length - c.obls.length)) 0).take (4 * 4096)).flatMap (bytesLE 8)
    (s.storeBytes (c.area + 0x4000) l).storeBytes (c.area + 0x24000) l

/-- Bytes of a part of a context area whose inside the spec does not lay out: free values (R341; log 9). -/
def State.writeFree (s : State) (key n : Nat) : State :=
  { s.storeBytes key ((List.range n).map (Config.areaByte s.free)) with free := s.free + 1 }
/-- The image and the tag table of a task are written (R32, R341, R344; log 9). -/
def State.writeImage (s : State) (area : Nat) : State := (s.writeFree (area + 0x100) 0x500).writeFree (area + 0x2800) 0x110
/-- The task record is written at the start of a task and as its session changes (R341, R345; log 9). -/
def State.writeHead (s : State) (c o : Ctx) : State :=
  if c.tid = o.tid ∧ c.bpSession = o.bpSession then s else s.writeFree c.area 0x20

/-- The breakpoint words of a task record that have changed are written (R280, R341). -/
def State.writeBreaks (s : State) (c : Ctx) (was : Vector Word 4) : State :=
  if c.bp = was then s else s.storeBytes (c.area + 0x20) (c.bp.toList.flatMap fun w => bytesLE 8 w.toNat)

/-- What has changed in a step is written through to the context areas (R186). -/
def State.writeThrough (s old : State) : State := s.keptTasks.foldl (fun t c =>
  let o := old.taskBefore c.tid
  ((t.writeRegistry c o.obls).writeHead c o).writeBreaks c o.bp) s

/-- A port in an image: a read port is refilled from its position at restore (R32). -/
def Port.inImage (p : Port) : Port := if p.wr || p.base == 0 then p else { p with moved := p.pos, fifo := [] }

/-- A task as its image holds it (R32): a home that its pair has asked is asked again after the restore, as the pair has not
issued (R343). -/
def Ctx.inImage (c : Ctx) : Ctx :=
  { c with
    accs := c.accs.filter fun a => match a.op with | .ask _ => false | _ => true
    answered := none, ports := c.ports.map fun p => p.map Port.inImage }

/-- The state that a saved task comes back in (R32, R197): its wait, or the park or the trap that it had. A wait that has ended
meanwhile, and a park that an asked home held it in, are over. -/
def Slot.comesBack (sl : Slot) : SlotSt :=
  if sl.ctx.wait.isSome then (if sl.st = .shelving then .object else sl.was)
  else if sl.st = .shelving ∨ sl.was = .object ∨ sl.was = .mailbox ∨ sl.was = .shelving then sl.ctx.goesTo
  else if (sl.ctx.accs.any fun a => match a.op with | .ask _ => true | _ => false) then .ready
  else sl.was

/-- The image of a task is written, with a directory that holds no tile where it has none (R149), and its slot becomes empty
(R343 steps 4 and 5; R221). A shelved task is restored once its
wait has ended; a pre-empted one waits for a slot at once. -/
def State.saveEnd (s : State) (n : Nat) (i : Fin 16) : State :=
  let sl := s.slotAt n i
  let mine := s.ownsTile n i
  let saving := (s.coreAt n).shapes.toList.any fun h => h.saving && mine h
  let c := { sl.ctx.inImage with saved := if saving then sl.ctx.saved else [] }
  let s0 := (if saving then s else s.writeTiles c.area (List.replicate 8 SavedTile.init)).writeImage c.area
  let im : Image := { ctx := c, st := sl.comesBack, ready := sl.st == .preempting || c.wait.isNone, seq := s.seq }
  (((s0.modCore n (releaseTiles i)).vacate n i).modCore n fun x => { x with images := x.images ++ [im] }).bump

/-- PRE_EMPTION_SAVE: once the slot's matrix requests have written their results and its write ports are drained, its tiles
go into the image, and then the image is written (R150, R343). A slot that is shelving writes its image in the same way
(R11, R221). -/
def execPreEmptionSave (core slot : Nat) (s : State) : Host.Outcome State Fault Refusal :=
  let i : Fin 16 := Fin.ofNat 16 slot
  .next (if !s.saveable core i then s
    else if (s.coreAt core).shapes.toList.any fun h => h.inuse && s.ownsTile core i h then s.saveBegin core i
    else s.saveEnd core i)

/-! ### The reply catcher (R344) -/

/-- A saved task as it would stand in slot `i` of its core, which gives its slot up, and what `f` does to it there. Whether
its settle is over is found at the restore. -/
def State.inImage (s : State) (n k : Nat) (i : Fin 16) (f : State → State) : State :=
  match (s.coreAt n).images[k]? with
  | none => s
  | some im =>
    let old := s.slotAt n i
    let t := f (s.modSlot n i fun sl => { sl with st := .preempting, since := s.clk, ctx := im.ctx })
    let c := t.ctxAt n i
    (t.modSlot n i fun _ => old).modCore n fun x => { x with
      images := x.images.mapIdx fun j y => if j = k then y.heard c else y }

/-- A slot number that an operation of a saved task does not name. -/
def spareSlot (a : Access) : Fin 16 := match a.op with
  | .fill _ slot _ _ => if slot = 15 then 14 else 15
  | _ => 15

/-- REPLY_CATCHER: the result of access `id` of the `n`-th image of a core is written into the image (R344); a late
fault waits there until the restore. -/
def execReplyCatcher (core n id : Nat) (err : Bool) (s : State) : Host.Outcome State Fault Refusal :=
  .next (match (s.coreAt core).images[n]? with
    | none => s
    | some im => match im.ctx.accs.find? fun a => a.id == id with
      | none => s
      | some a => s.inImage core n (spareSlot a) fun t => t.complete core (spareSlot a) a err)

/-! ### Breakpoints (R280, R386) -/

/-- The stop record (R386). -/
def stopRecord (tid : BitVec 48) (bp : Nat) (halted : Bool) (time : Word) : List Byte :=
  bytesLE 8 (0xFFFFFFFF + 9 * 2 ^ 48) ++ bytesLE 8 (tid.toNat + bp % 4 * 2 ^ 48 + halted.toNat * 2 ^ 50) ++
    bytesLE 8 time.toNat ++ bytesLE 8 0

/-- A stop record written in the next record position of a queue's completion ring (R345, R386; log 25). -/
def State.recordStop (s : State) (q : Nat) (tid : BitVec 48) (bp : Nat) (halted : Bool) : State :=
  let x := s.queueAt q
  if !x.reg.valid then s
  else
  let at_ := x.reg.cpl.toNat + (x.done + x.stops) % 2 ^ x.reg.log2n.toNat * 32
  (s.storeBytes (0x8000000000000 + at_) (stopRecord tid bp halted s.time)).modQueue q fun x => { x with stops := x.stops + 1 }

/-- The queue of a debug session (R345). -/
def State.sessionQueue (s : State) (n : BitVec 8) : Option Nat := if n = 0 then none else tabGet s.hub.sessions n.toNat

/-- An entry of a queue finishes (R331). -/
def State.finishEntry (s : State) (q id : Nat) (st : BitVec 8) (d : Word) : State := s.modQueue q fun x =>
  { x with entries := x.entries.map fun e => if e.id = id ∧ e.result = none then { e with result := some (st, d, s.time) } else e }

/-- A slot stops in state 8 with cause BREAKPOINT (R280): no trap record, no dump and no count in PCNT 7. -/
def State.stopAt (s : State) (n : Nat) (i : Fin 16) : State :=
  (s.modCtxAt n i fun c => { c with
    trap := some { cause := Cause.breakpoint, late := false, pc := c.pc, addr := 0, ranks := 0, pair := 0 }
    handled := true, bpStop := true, dbgHalt := none, answered := none }).setSt n i .faulted

/-- A debug HALT takes effect on a task that is in state 8 already: the stop is recorded, and nothing else changes
(R385). -/
def State.noteHalt (s : State) (n : Nat) (i : Fin 16) (q id : Nat) : State :=
  let c := s.ctxAt n i
  ((s.modCtxAt n i fun c => { c with dbgHalt := none }).recordStop ((s.sessionQueue c.bpSession).getD q) c.tid 0 true).finishEntry
    q id 0 0

/-- The stop of a task with its record (R280, R385, R386): by a pending debug HALT first, else by a breakpoint. -/
def State.stopTask (s : State) (n : Nat) (i : Fin 16) : State :=
  let c := s.ctxAt n i
  match c.dbgHalt with
  | some (q, k) => ((s.stopAt n i).recordStop ((s.sessionQueue c.bpSession).getD q) c.tid 0 true).finishEntry q k 0 0
  | none => match c.bpHit, s.sessionQueue c.bpSession with
    | some b, some q => (s.stopAt n i).recordStop q c.tid b false
    | some _, none => s.stopAt n i
    | none, _ => s

/-- BREAKPOINT: before a pair issues whose PC equals an enabled word, or where a debug HALT is pending, the slot
stops, and no part of the pair commits (R280, R386). -/
def execBreakpoint (core slot : Nat) (s : State) : Host.Outcome State Fault Refusal :=
  let i : Fin 16 := Fin.ofNat 16 slot
  .next (match (s.slotAt core i).st, (s.ctxAt core i).dbgHalt with
    | .faulted, some (q, id) => s.noteHalt core i q id
    | _, _ => if (s.slotAt core i).stops then s.stopTask core i else s)

/-! ### Restarting and losing a task (R207, R376) -/

/-- The cores on which a task of a region may be placed, after core `n` in increasing number and wrapping: contained
cores are skipped, and NOMX clusters where the region uses the matrix unit (R376). -/
def State.nextCores (s : State) (rcb : Word) (n : Nat) : List Nat :=
  let first := s.firstCore rcb
  let num := s.numCores rcb
  ((List.range num).map fun k => first + (n + 1 - first + k) % num).filter fun k =>
    !(s.coreAt k).contained && !(s.usesMatrix rcb && (s.clusterAt (clusterOfCore k)).nomx)

/-- A restarted task waits for a slot as a launch arrival (R376). It keeps its TID, and the numbers of its dumps go on (R377). -/
def State.restart (s : State) (n : Nat) (c : Ctx) (seats : List Obl) : State :=
  let entry := ((s.hub.starts.find? fun e => e.1 == c.rcb).map fun e => e.2.1).getD 0
  match (s.nextCores c.rcb n).head? with
  | some m =>
    let k : Kid :=
      { ctx := { s.newTask m c.rcb c.tid entry c.args .launched seats with args := c.args, restarts := c.restarts + 1, dseq := c.dseq }
        seq := s.seq, migrating := none }
    (s.modCore m fun x => if x.runq.length < 64 then { x with runq := x.runq ++ [k] } else { x with launches := x.launches ++ [k] }).bump
  | none => s.passToHeir c.rcb c.tid 2 n seats

/-- May a task be restarted (R376)? -/
def State.mayRestart (s : State) (c : Ctx) : Bool :=
  c.start == .launched && s.restartable c.rcb && decide (c.restarts < 3) && s.hub.starts.any fun e => e.1 == c.rcb

/-- The heir hears which obligations a lost context had: they are poisoned already, and none passes (R207). Where no region is
the heir, service firmware hears it (R202). -/
def State.reportLost (s : State) (n : Nat) (c : Ctx) (l seats : List Obl) : State :=
  let heir := s.heirOf 64 c.rcb
  let m : Msg :=
    { id := s.seq, kind := .notice, rcb := heir.getD 0, pc := (heir.map s.noticePc).getD 0
      payload := [1, c.tid.zeroExtend 64, 3, BitVec.ofNat 64 l.length] ++ (l.map (·.addr)).take 6
      sender := none, ob := none, obls := [], core := n, fixed := false, about := c.tid, seats := seats }
  (match heir with
    | none => s.modHub fun h => { h with notices := h.notices ++ [Notice.trapToService m] }
    | some _ => s.modCore n fun x => { x with msgs := x.msgs ++ [m] }).bump

/-- CONTEXT_LOST (R207): the task's entries are poisoned with 0xFD and reported to the heir with reason 3; a task that
may be restarted keeps its seat (R376). Where a region is the heir, the seat of one that may not leaves its barrier, poisoned,
in the step in which the notice has its slot: the barrier stays owed while the claim is pending (R337). -/
def State.loseContext (s : State) (n : Nat) (c : Ctx) : State :=
  let again := s.mayRestart c
  let seats := c.obls.filter (ownSeat c.rcb)
  let late := if again || (s.heirOf 64 c.rcb).isNone then [] else seats
  let gone := c.obls.filter fun o => o.isLocal && !(again && seats.contains o)
  let s1 := (s.endOff n c 0xFD).reportLost n c (c.obls.filter fun o => !(again && seats.contains o)) late
  let s2 := if again then s1.restart n c seats else s1
  (gone.filter fun o => !late.contains o).foldl (fun s e => s.dischargeAll e (some 0xFD) e.m) s2

/-- Is the image of a saved task uncorrectable (R321, R341)? -/
def State.imageLost (s : State) (c : Ctx) : Bool := s.poisoned (c.area + 0x100) 0x2700

/-! ### Slot claims (R340) -/

/-- The messages that a core refuses: a SEND to a contained one, or for a region that has ended, fails at its sender (R218,
R337, R375). -/
def State.refuseMsgs (s : State) (n : Nat) : State :=
  let (bad, good) := (s.coreAt n).msgs.partition fun m => m.fixed && ((s.coreAt n).contained || !s.hub.regions.contains m.rcb)
  bad.foldl (fun s m => match m.sender with
    | some tid => match s.findTask tid with
      | some (k, i) => match (s.ctxAt k i).accs.find? fun a => a.op == .send m.id with
        | some a => s.failAcc k i a Cause.protection 0
        | none => s
      | none => s.modTask tid fun c => match c.accs.find? fun a => a.op == .send m.id with
        | some a => (c.dropAcc a.id).addLate Cause.protection a.pc a.pair 0
        | none => c
    | none => s) (s.modCore n fun c => { c with msgs := good })

/-- The messages of the device that wait for a slot of a core, or of any core of a set that it lies in, while no core of the set
has one free (R276, R340). -/
def State.msgsAt (s : State) (n : Nat) : List Msg := s.cores.flatMap fun e => e.2.msgs.filter fun m =>
  s.hub.regions.contains m.rcb && (s.msgCore m).isNone && (if m.fixed then m.core == n else s.inCoreSet m.rcb n)

/-- The priorities of those that wait for a slot of a core, apart from those that SLOTCAP keeps out. -/
def State.waiterPrios (s : State) (n : Nat) : List Nat :=
  let c := s.coreAt n
  let open_ := fun (r : Word) => decide (c.held r < s.slotCap r)
  (((s.msgsAt n).map (·.rcb) ++ (c.images.filter (·.ready)).map (·.ctx.rcb) ++ (c.runq ++ c.launches).map (·.ctx.rcb)).filter open_).map
    s.rcbPrio

/-- The `k`-th highest of some priorities, from 0 on; 0 beyond the last. -/
def nthPrio : Nat → List Nat → Nat
  | 0, l => bestPrio l
  | k + 1, l => nthPrio k (l.erase (bestPrio l))

/-- The slot that an arrival pre-empts (R340): with no slot free, the lowest-priority one whose region has PREEMPT,
below the waiter's priority; among equals the one claimed most recently. A slot that is giving itself up already serves the
waiters before. -/
def State.victim (s : State) (n : Nat) : Option (Fin 16) :=
  let c := s.coreAt n
  let p := nthPrio (c.slots.toList.filter fun sl => sl.st == .preempting).length (s.waiterPrios n)
  if c.slots.toList.any fun sl => sl.st == .empty then none
  else allSlots.foldl (fun (best : Option (Fin 16)) i =>
    let sl := c.slots[i]
    let q := s.rcbPrio sl.ctx.rcb
    if !sl.st.preemptable || sl.ctx.trail || !s.preemptable sl.ctx.rcb || decide (p ≤ q) then best
    else match best with
      | none => some i
      | some b =>
        let r := s.rcbPrio c.slots[b].ctx.rcb
        if q < r ∨ (q = r ∧ c.slots[b].claimed < sl.claimed) then some i else some b) none

/-- Launched tasks move into the run queue, in launch order, as entries free (R340). -/
def Core.refill (c : Core) : Core :=
  let k := 64 - c.runq.length
  { c with runq := c.runq ++ c.launches.take k, launches := c.launches.drop k }

/-- SLOT_CLAIM: the device chooses among the waiters of a core, and the chosen one claims a slot (R340). An image found
uncorrectable is lost (R207). Where no slot is free, a pre-emption may follow. Slots that settle for the sake of a
notice go on. -/
def execSlotClaim (core : Nat) (s : State) : Host.Outcome State Fault Refusal :=
  let lost := (s.coreAt core).images.find? fun im => im.ready && (s.claimable core im.ctx.rcb).isSome && s.imageLost im.ctx
  let s1 := match lost with
    | some im => s.loseContext core im.ctx
    | none =>
      (s.coreNums.foldl State.redirect (s.coreNums.foldl State.refuseMsgs s)).claim core
  let s1' := s1.modCore core Core.refill
  let s2 := match s1'.victim core with
    | some i => { s1' with agenda := .event (.preEmption core i.val) :: s1'.agenda }
    | none => s1'
  .next (s2.coreNums.foldl (fun s n => allSlots.foldl (fun s i =>
    if (s.slotAt n i).st = .settle then s.settled n i else s) s) s2)

/-! ### Containment (R374) -/

/-- The place of a task that stands in a slot or in an image. -/
def State.findHeld (s : State) (tid : BitVec 48) : Option (Nat × Nat) := match s.findTask tid with
  | some (n, i) => some (n, i.val)
  | none => s.cores.findSome? fun e => (e.2.images.findIdx? fun im => im.ctx.tid == tid).map fun k => (e.1, k + 16)

/-- The trap record whose handler has been lost is delivered again, while its task is still in state 8 with that trap and has
not been resumed (R376). -/
def State.redeliver (s : State) (tid : BitVec 48) (no : Nat) : State := match s.findHeld tid with
  | none => s
  | some (n, k) => match s.heldAt n k with
    | none => s
    | some c => match c.trap with
      | none => s
      | some t =>
        if s.heldSt n k = .faulted ∧ c.handled ∧ t.cause ≠ Cause.breakpoint ∧ c.dseq = no then s.deliverTrap n k c t else s

/-- Step 5 of R374 for a task whose channels have closed: it is restarted, or passes its obligations to its heir; a
handler's unhandled trap record is delivered again (R376). -/
def State.disposeOf (s : State) (n : Nat) (c : Ctx) : State :=
  let obls := c.obls.filter (·.isLocal)
  if s.mayRestart c then
    (s.passToHeir c.rcb c.tid 2 n (obls.filter fun o => !ownSeat c.rcb o)).restart n c (obls.filter (ownSeat c.rcb))
  else
    let s1 := s.passToHeir c.rcb c.tid 2 n obls
    if c.start = .trapRecord then s1.redeliver c.about c.aboutNo else s1

/-- Step 5 of R374 for a task in a slot. -/
def State.containSlot (s : State) (n : Nat) (i : Fin 16) : State :=
  let sl := s.slotAt n i
  if sl.st = .empty ∨ sl.ctx.trail then s
  else
    let s1 := ((s.recall sl.ctx.tid).modCore n (releaseTiles i)).closeAll n i (some 0xFB)
    let c := s1.ctxAt n i
    (s1.vacate n i).disposeOf n c

/-- Step 5 of R374 for a task that is queued or shelved on the core. -/
def State.containOff (s : State) (n : Nat) (c : Ctx) : State :=
  (s.endOff n c 0xFB).disposeOf n c

/-- The fills that wait on a core are refused: a REGPUT fails at its sender (R375). -/
def State.refuseFills (s : State) (n : Nat) : State :=
  (s.coreAt n).fills.foldl (fun s f => s.endFill f.src (some Cause.protection)) (s.modCore n fun c => { c with fills := [] })

/-- CONTAINMENT of a core, in the order of R374. -/
def State.contain (s : State) (n : Nat) : State :=
  if (s.coreAt n).contained then s
  else
    let s1 := allSlots.foldl (fun s i => if (s.slotAt n i).st = .empty ∨ (s.ctxAt n i).trail then s else s.flushTask n i) s
    let s2 := s1.modCore n fun c => { c with sealed := true }
    let s3 := (s2.coreAt n).engs.foldl (fun s op => s.finishOp n op 0x07 0 0) s2
    let s4 := ((s3.modCore n fun c => { c with contained := true }).refuseFills n).refuseMsgs n
    let s5 := allSlots.foldl (fun s i => s.containSlot n i) s4
    let s6 := (s5.coreAt n).offSlot.foldl (fun s c => s.containOff n c) s5
    s6.modHub fun h => { h with notices := h.notices ++ [.contained n, Notice.ofEvent 0] }

/-- CONTAINMENT of a core (R373, R374). -/
def execContainment (core : Nat) (s : State) : Host.Outcome State Fault Refusal := .next (s.contain core)

end Sys2Proof.Machine
end

