-- ==== Sys2Proof/Machine/Queue.lean ====
section
/-! DEFINITION. Host queues, command entries, regions and placement (19, R324 to R339, R345; 23, R385; 24, R387 to
R389). -/

namespace Sys2Proof.Machine

/-- The memory key of a host address (R302). -/
def hostKey (a : Nat) : Nat := 0x8000000000000 + a

/-! ### Notify registers and binding (R326, R327) -/

/-- The HDM range: 1 to 64 GiB of one die's stacked DRAM (R387, R389; log 33). -/
def inHdm (key : Nat) : Bool :=
  let (die, at_, size) := Config.hdmRange
  let n := 1 + size % 64
  let base := die % 4 * 2 ^ 37 + at_ % (129 - n) * 2 ^ 30
  decide (base ≤ key) && decide (key < base + n * 2 ^ 30)

/-- A TAIL write: refused when the value lies behind TAIL or too far ahead of DONE, and ignored by a queue that is not
registered (R324, R326). -/
def State.writeTail (s : State) (q : Nat) (v : BitVec 32) : State :=
  let x := s.queueAt q
  let ahead := (v.toNat + 2 ^ 32 - x.done) % 2 ^ 32
  let now := (x.tail + 2 ^ 32 - x.done) % 2 ^ 32
  if !x.reg.valid then s
  else if ahead < now ∨ 2 ^ x.reg.log2n.toNat < ahead then s.modQueue q fun y => { y with error := true }
  else s.modQueue q fun y => { y with tail := v.toNat, since := if y.head = y.tail then s.clk else y.since }

/-- What the host reads at an offset of the notify page of a queue (R326): offsets that are not listed, TAIL among the ones
that cannot be read, give zero, and so does a queue that is not registered (R324). -/
def State.notifyRead (s : State) (q off : Nat) : BitVec 32 :=
  let x := s.queueAt q
  if !x.reg.valid then 0
  else match off with
    | 0x008 => BitVec.ofNat 32 x.head
    | 0x00C => BitVec.ofNat 32 x.done
    | 0x010 => BitVec.ofNat 32 (x.wait.isSome.toNat * 4 + x.error.toNat * 2 + x.bound.toNat)
    | _ => 0

/-- What the host writes at an offset of the notify page (R326): TAIL, and ERROR, which a one clears; no other write acts, and a
queue that is not registered ignores them all (R324). -/
def State.notifyWrite (s : State) (q off : Nat) (v : BitVec 32) : State :=
  if !(s.queueAt q).reg.valid then s
  else match off with
    | 0x000 => s.writeTail q v
    | 0x010 => if v.getLsbD 1 then s.modQueue q fun x => { x with error := false } else s
    | _ => s

/-- DEVSTAT (R388). -/
def Hub.devstat (h : Hub) : BitVec 32 := BitVec.ofNat 32 ((h.ready && !h.warm).toNat + h.bootfail.toNat * 2 + h.warm.toNat * 4)

/-- What the host reads in a BAR (R388): BAR0 holds the notify pages, BAR2 DEVSTAT; the rest of the first 4 KiB of BAR2 reads
zero, and the management mailbox above it is none of this model (log 14). -/
def State.barRead (s : State) (bar off : Nat) : BitVec 32 :=
  if bar = 0 then s.notifyRead (off / 4096) (off % 4096) else if off = 0 then s.hub.devstat else 0

/-- TAIL_WRITE: held until the device is ready, and while a warm reset runs (R391, R399). -/
def execTailWrite (q : Nat) (v : BitVec 32) (s : State) : Host.Outcome State Fault Refusal :=
  .next (if !s.hub.ready || s.hub.warm then s.modHub fun h => { h with held := h.held ++ [.tail q v] } else s.notifyWrite q 0 v)

/-- Has an interpreter anything to run (R327)? -/
def Queue.runnable (x : Queue) : Bool :=
  x.reg.valid && x.wait.isNone && (x.held.isSome || !x.calls.isEmpty || x.head != x.tail)

/-- Has a bound interpreter nothing runnable (R327): its ring holds no unaccepted entry, or it is parked on a WAITOBJ? -/
def Queue.unused (x : Queue) : Bool := x.wait.isSome || (x.calls.isEmpty && x.head == x.tail)

/-- The queue that the mapper binds next: the highest PRIO, then the one that has waited longest (R327). -/
def State.nextQueue (s : State) : Option Nat :=
  (s.hub.queues.foldl (fun (best : Option (Nat × Queue)) e =>
    if !e.2.runnable || e.2.bound then best
    else match best with
      | none => some e
      | some b => if b.2.reg.prio < e.2.reg.prio ∨ (b.2.reg.prio = e.2.reg.prio ∧ e.2.since < b.2.since) then some e else some b)
    none).map (·.1)

/-- QUEUE_BIND: a free one of the 32 interpreter slots takes a queue (R327). -/
def execQueueBind (s : State) : Host.Outcome State Fault Refusal :=
  .next (match s.nextQueue with
    | some q => if (s.hub.queues.filter fun e => e.2.bound).length < 32 then s.modQueue q fun x => { x with bound := true } else s
    | none => s)

/-- QUEUE_UNBIND: a queue with nothing runnable for 50 µs gives its slot up (R327). -/
def execQueueUnbind (n : Nat) (s : State) : Host.Outcome State Fault Refusal :=
  .next (if (s.queueAt n).bound && (s.queueAt n).unused then s.modQueue n fun x => { x with bound := false } else s)

/-! ### Reading and accepting entries (R326, R328) -/

/-- An address in an entry, under the page tables of the queue's region (R328). -/
def State.entryKey (s : State) (q : Nat) (p : Word) (n : Nat) (k : AccKind) : Except (BitVec 8) Nat :=
  let rcb := (s.queueAt q).reg.qrcb
  if p.toNat / 2 ^ 60 ≠ 0 then .error Cause.addrTag
  else match s.element (s.regionWho rcb (s.firstCore rcb)) p n 8 k with
    | .error t => .error t.cause
    | .ok (.fab _ _) => .error Cause.addrTag
    | .ok (.mem key) => match (if k = .write then none else s.dataFault key n false) with
      | some f => .error f.1
      | none => .ok key

/-- `n` words read at an address of an entry. -/
def State.entryWords (s : State) (q : Nat) (p : Word) : Nat → Except (BitVec 8) (List Word)
  | 0 => .ok []
  | n + 1 => match s.entryKey q p 8 .read with
    | .error c => .error c
    | .ok key => match s.entryWords q (p + 8) n with
      | .error c => .error c
      | .ok ws => .ok (BitVec.ofNat 64 (s.load key 8) :: ws)

/-- Word `k` of a list of words. -/
def word (ws : List Word) (k : Nat) : Word := ws.getD k 0
/-- The TYPE of an entry (R328). -/
def entryType (ws : List Word) : Nat := bitsOf (word ws 0) 7 0
/-- How many words after word 0 a type uses (R328). -/
def entryUses : Nat → Nat
  | 1 => 7 | 2 => 2 | 3 => 3 | 4 => 3 | 5 => 1 | 6 => 1 | 8 => 5 | 9 => 5 | _ => 0
/-- Is a reserved bit of an entry nonzero (R328)? -/
def entryBad (ws : List Word) : Bool :=
  bitsOf (word ws 0) 15 8 != 0 || bitsOf (word ws 0) 63 32 != 0 || (ws.drop (entryUses (entryType ws) + 1)).any (· != 0)

/-- Is an accepted entry of a queue without a record after a reset? LOST is written for it before the ring goes on (R392). -/
def Queue.losing (x : Queue) : Bool := x.entries.any fun e => match e.result with
  | some (st, _, _) => st == 0x0B
  | none => false

/-- The next entry of an interpreter, be it one that is accepted already: its words, or the cause that keeps an entry of a called list
from being read. -/
def State.nextEntry (s : State) (q : Nat) : Option (Except (BitVec 8) (List Word)) :=
  let x := s.queueAt q
  if !x.reg.valid || !x.bound || x.wait.isSome || x.losing || s.hub.warm then none
  else match x.held, x.calls with
    | some (_, ws), _ => some (.ok ws)
    | none, at_ :: _ => some (s.entryWords q at_ 8)
    | none, [] =>
      if x.head = x.tail then none
      else
        let key := hostKey (x.reg.ring.toNat + x.head % 2 ^ x.reg.log2n.toNat * 64)
        some (.ok ((List.range 8).map fun k => BitVec.ofNat 64 (s.load (key + 8 * k) 8)))

/-- The number of the next entry: the one that it has, or the one that it takes. -/
def State.nextId (s : State) (q : Nat) : Nat := match (s.queueAt q).held with
  | some (id, _) => id
  | none => s.seq

/-- The entry is taken: one of the ring is accepted, one of a called list is passed (R326, R328). -/
def State.takeEntry (s : State) (q : Nat) (ws : List Word) : State :=
  if (s.queueAt q).held.isSome then s.modQueue q fun x => { x with held := none }
  else (s.modQueue q fun x =>
    let e : QEntry :=
      { id := s.seq, index := x.head, tag := BitVec.ofNat 16 (bitsOf (word ws 0) 31 16), typ := BitVec.ofNat 8 (entryType ws)
        listed := !x.calls.isEmpty, result := none, launch := none }
    match x.calls with
    | at_ :: rest => { x with entries := x.entries ++ [e], calls := (at_ + 64) :: rest }
    | [] => { x with entries := x.entries ++ [e], head := (x.head + 1) % 2 ^ 32, skip := x.skip - 1 }).bump

/-- An entry is taken and does not act yet: reading it accepts it (R326). -/
def State.holdEntry (s : State) (q : Nat) : State := match s.nextEntry q with
  | some (.ok ws) => (s.takeEntry q ws).modQueue q fun x => { x with held := some (s.nextId q, ws) }
  | _ => s

/-- A status that ends an entry, with its detail (R331). -/
abbrev Status := BitVec 8 × Word

namespace Status
def ok : Status := (0x00, 0)
def obrank : Status := (0x02, 0)
def unownedWait : Status := (0x03, 0)
def noObligation : Status := (0x04, 0)
def badentry : Status := (0x05, 0)
def protection : Status := (0x06, 0)
def rankExhausted : Status := (0x07, 0)
def noresource : Status := (0x08, 0)
def skipped : Status := (0x09, 0)
def objOversub : Status := (0x0C, 0)
/-- FAULT with its cause (R330, R331). -/
def fault (c : BitVec 8) : Status := (0x0D, c.zeroExtend 64)
/-- FAULT of an entry that has no DETAIL (R331). -/
def faultOnly : Status := (0x0D, 0)
end Status

/-- The status of a fault on an object (R330). -/
def statusOfTrap (c : BitVec 8) : Status :=
  if c = Cause.obrank then Status.obrank else if c = Cause.unownedWait then Status.unownedWait
  else if c = Cause.noObligation then Status.noObligation else if c = Cause.rankExhausted then Status.rankExhausted
  else if c = Cause.objOversub then Status.objOversub else Status.fault c

/-- The first status other than OK among the entries of a called list that have finished (R328): those after the CALL
that is still going on. -/
def listStatus (l : List QEntry) : Status :=
  (((l.dropWhile fun e => e.typ != 6 || e.listed || e.result.isSome).filter (·.listed)).findSome? fun e => match e.result with
    | some (st, d, _) => if st = 0 then none else some (st, d)
    | none => none).getD Status.ok

/-- The outermost CALL completes with the first status other than OK of its list, and no DETAIL (R328, R331): its list's finished
entries are done with. -/
def State.endCalls (s : State) (q : Nat) : State := s.modQueue q fun x =>
  let r := listStatus x.entries
  { x with
    calls := []
    entries := (x.entries.map fun e => if e.typ = 6 ∧ e.result = none then { e with result := some (r.1, 0, s.time) } else e).filter
      fun e => !e.listed || e.result.isNone }

/-- An interpreter acts on its next entry when it is one that the event names (R329). `act` answers the status, or none
when the entry is still going on; `id` numbers the entry. An entry that SKIPIF passes over completes SKIPPED, and a
reserved bit completes it with BADENTRY. -/
def State.onEntry (s : State) (q : Nat) (mine : List Word → Bool) (act : Nat → List Word → State → State × Option Status) : State :=
  match s.nextEntry q with
  | some (.ok ws) =>
    if !mine ws then s
    else
      let id := s.nextId q
      let t := s.takeEntry q ws
      if (s.queueAt q).calls.isEmpty && (s.queueAt q).skip != 0 then t.finishEntry q id Status.skipped.1 Status.skipped.2
      else if entryBad ws then t.finishEntry q id Status.badentry.1 Status.badentry.2
      else match act id ws t with
        | (u, some r) => u.finishEntry q id r.1 r.2
        | (u, none) => u
  | _ => s

/-- An entry whose effect depends on the state alone. -/
def pureEntry (f : List Word → State → State × Status) : Nat → List Word → State → State × Option Status :=
  fun _ ws s => ((f ws s).1, some (f ws s).2)

/-! ### NOP, JUMP, CALL, RETURN, SKIPIF (R328) -/

/-- Entries on which no other event acts: NOP, an unassigned TYPE, and an unassigned sub-operation. -/
def nopMine (ws : List Word) : Bool :=
  entryType ws == 0 || decide (10 < entryType ws) || (entryType ws == 3 && bitsOf (word ws 3) 1 0 == 3) ||
    (entryType ws == 9 && decide (5 < bitsOf (word ws 1) 2 0))

/-- NOP completes at once, and an unassigned TYPE with BADENTRY (R328). A called list whose next entry cannot be read
ends there with status FAULT (log 27). -/
def execNopEntry (q : Nat) (s : State) : Host.Outcome State Fault Refusal :=
  .next (match s.nextEntry q with
    | some (.error c) =>
      let t := s.takeEntry q []
      ((t.finishEntry q s.seq (Status.fault c).1 (Status.fault c).2).endCalls q)
    | _ => s.onEntry q nopMine (pureEntry fun ws t => (t, if entryType ws = 0 then Status.ok else Status.badentry)))

/-- JUMP goes on at W1, inside a called list only (R328). -/
def execJumpEntry (q : Nat) (s : State) : Host.Outcome State Fault Refusal :=
  .next (s.onEntry q (fun ws => entryType ws == 5) (pureEntry fun ws t =>
    if (s.queueAt q).calls.isEmpty ∨ (word ws 1).toNat % 64 ≠ 0 then (t, Status.badentry)
    else (t.modQueue q fun x => { x with calls := word ws 1 :: x.calls.drop 1 }, Status.ok)))

/-- CALL runs the list at W1 until its RETURN; a fifth nested one is BADENTRY (R328). -/
def execCallEntry (q : Nat) (s : State) : Host.Outcome State Fault Refusal :=
  .next (s.onEntry q (fun ws => entryType ws == 6) fun _ ws t =>
    let depth := (s.queueAt q).calls.length
    if 4 ≤ depth ∨ (word ws 1).toNat % 64 ≠ 0 then (t, some Status.badentry)
    else (t.modQueue q fun x => { x with calls := word ws 1 :: x.calls }, if depth = 0 then none else some Status.ok))

/-- RETURN ends the innermost call; in the ring it is BADENTRY (R328). -/
def execReturnEntry (q : Nat) (s : State) : Host.Outcome State Fault Refusal :=
  .next (match s.nextEntry q with
    | some (.ok ws) =>
      if entryType ws = 7 ∧ (s.queueAt q).calls.length = 1 ∧ !entryBad ws then (s.takeEntry q ws).finishEntry q s.seq 0 0 |>.endCalls q
      else s.onEntry q (fun ws => entryType ws == 7) (pureEntry fun _ t =>
        if (s.queueAt q).calls.isEmpty then (t, Status.badentry)
        else (t.modQueue q fun x => { x with calls := x.calls.drop 1 }, Status.ok))
    | _ => s)

/-- The condition of a SKIPIF (R328). -/
def skipCond (c : Nat) (a b : Word) : Bool := match c with
  | 0 => a == b
  | 1 => a != b
  | 2 => decide (b.toNat ≤ a.toNat)
  | _ => decide (a.toNat < b.toNat)

/-- SKIPIF (R328). -/
def execSkipif (q : Nat) (s : State) : Host.Outcome State Fault Refusal :=
  .next (s.onEntry q (fun ws => entryType ws == 8) (pureEntry fun ws t =>
    let n := (word ws 5).toNat
    if n = 0 ∨ 255 < n ∨ 3 < (word ws 4).toNat then (t, Status.badentry)
    else match t.entryKey q (word ws 1) 8 .read with
      | .error _ => (t, Status.faultOnly)
      | .ok key =>
        let v := BitVec.ofNat 64 (t.load key 8)
        if skipCond (word ws 4).toNat (v &&& word ws 3) (word ws 2 &&& word ws 3) then
          (t.modQueue q fun x => { x with skip := n }, Status.ok)
        else (t, Status.ok)))

/-! ### WAITOBJ and SIGNALOBJ (R329, R330) -/

/-- The object that an entry names, or the cause of the fault (R181, R330). -/
def State.entryObj (s : State) (q : Nat) (p : Word) : Except (BitVec 8) Nat :=
  let rcb := (s.queueAt q).reg.qrcb
  if p.toNat / 2 ^ 60 ≠ 0 then .error Cause.addrTag
  else match s.objAt (s.regionWho rcb (s.firstCore rcb)) p .write false with
    | .error t => .error t.cause
    | .ok key => .ok key

/-- WAITOBJ is decided as WAIT decides (R196, R330); one that parks completes at its wake. -/
def execWaitobj (q : Nat) (s : State) : Host.Outcome State Fault Refusal :=
  .next (s.onEntry q (fun ws => entryType ws == 2) fun _ ws t =>
    match t.entryObj q (word ws 1) with
    | .error c => (t, some (Status.fault c))
    | .ok key =>
      let o := t.obj key
      if minRank (t.queueAt q).obls ≤ o.rank then (t, some Status.obrank)
      else if o.poisoned then (t.pokeIdle key, some (0x01, BitVec.ofNat 64 o.pcode))
      else if o.cond (word ws 2) then (t.pokeIdle key, some Status.ok)
      else if o.unowed then (t.pokeIdle key, some Status.unownedWait)
      else
        let w : Waiter := { key := key, target := word ws 2, who := .queue q }
        (((t.modQueue q fun x => { x with wait := some (key, word ws 2) }).modHub fun h =>
          { h with waiters := h.waiters ++ [w] }).countIn key w, none))

/-- The registry of an interpreter set. -/
def State.setQueueObls (s : State) (q : Nat) (l : List Obl) : State := s.modQueue q fun x => { x with obls := l }

/-- A SIGNALOBJ of one sub-operation (R328): its reserved bits, its object, and its effect. -/
def State.signalEntry (s : State) (q sub : Nat) (f : List Word → Nat → SObj → List Obl → State → State × Status) : State :=
  s.onEntry q (fun ws => entryType ws == 3 && bitsOf (word ws 3) 1 0 == sub) (pureEntry fun ws t =>
    if bitsOf (word ws 3) 7 2 ≠ 0 ∨ bitsOf (word ws 3) 63 16 ≠ 0 then (t, Status.badentry)
    else if sub = 2 ∧ 0xF0 ≤ bitsOf (word ws 3) 15 8 then (t, Status.fault Cause.priv)
    else match t.entryObj q (word ws 1) with
      | .error c => (t, Status.fault c)
      | .ok key => f ws key (t.obj key) (t.queueAt q).obls t)

/-- SIGNALOBJ sub OBLIGE acts as OBLIGE, with the interpreter as the holder (R191, R328). -/
def execSignalobjOblige (q : Nat) (s : State) : Host.Outcome State Fault Refusal :=
  .next (s.signalEntry q 0 fun ws key o l t =>
    if o.fabricKind then (t, Status.fault Cause.protection)
    else if (o.isBarrier && o.owed == o.count) || !registryRoom l (.local_ key) then (t, Status.objOversub)
    else ((t.setQueueObls q (addObl l key (word ws 1) o)).changeObj key { o with owed := o.owed + 1 }, Status.ok))

/-- SIGNALOBJ sub SIGNAL acts as SIGNAL (R192, R328). -/
def execSignalobjSignal (q : Nat) (s : State) : Host.Outcome State Fault Refusal :=
  .next (s.signalEntry q 1 fun ws key o l t =>
    if o.fabricKind then (t, Status.fault Cause.protection)
    else match findObl l (.local_ key) with
      | none => (t, Status.noObligation)
      | some e =>
        let r := signalObj o e (word ws 2).toNat
        ((t.setQueueObls q (putObl l r.2)).changeObj key r.1, Status.ok))

/-- SIGNALOBJ sub POISON acts as POISON; a code from 0xF0 gives FAULT with PRIV (R195, R330). -/
def execSignalobjPoison (q : Nat) (s : State) : Host.Outcome State Fault Refusal :=
  .next (s.signalEntry q 2 fun ws key o l t => match findObl l (.local_ key) with
    | none => (t, Status.noObligation)
    | some e =>
      let r := poisonObj o e (bitsOf (word ws 3) 15 8)
      ((t.setQueueObls q (putObl l r.2)).changeObj key r.1, Status.ok))

/-! ### Queues without their interpreter (R207, R391, R392) -/

/-- A queue whose interpreter is gone: it holds nothing and waits for nothing. -/
def Queue.halted (x : Queue) : Queue :=
  { x with bound := false, calls := [], wait := none, skip := 0, held := none, obls := [] }

/-- An entry without a written record gets LOST (R392). -/
def loseEntry (time : Word) (e : QEntry) : QEntry := { e with result := some (0x0B, 0, time), launch := none, copy := none }

/-- A queue after a warm reset: its registration, its indexes and the obligations in its state area stay; its list and
its wait are gone (R391, R392). -/
def Queue.warm (time : Word) (x : Queue) : Queue :=
  { x with
    bound := false, calls := [], wait := none, skip := 0, held := none
    entries := (x.entries.filter fun e => !e.listed).map (loseEntry time) }

/-- A queue whose interpreter's state was held by a part that has failed rebinds and proceeds as after a warm reset (R392,
R393). -/
def State.rebindQueue (s : State) (q : Nat) : State := (s.withdrawWho (.queue q)).modQueue q (Queue.warm s.time)

/-- The interpreters of bound queues whose state a failing part held go with it. Which they are no rule says: a free value
(log 32). -/
def State.loseQueues (s : State) : State :=
  let n := s.hub.queues.length
  { ((s.hub.queues.map (·.1)).zipIdx.foldl (fun t e =>
      if (t.queueAt e.1).bound && (Config.freeValue (s.free + e.2)).getLsbD 0 then t.rebindQueue e.1 else t) s) with free := s.free + n }

/-! ### COPY and FENCE (R328, R329) -/

/-- A COPY that is not finished and has not ended, at a place of the list of entries. -/
def Queue.copyAt (x : Queue) (k : Nat) : Option (QEntry × Word × Word × Nat × Work) :=
  x.entries[k]?.bind fun e => if e.result.isSome then none else e.copy.map fun c => (e, c)

/-- Does a copy of `n` bytes touch a part (R393)? The parts of memory are no smaller than 256 bytes. -/
def State.copyTouches (s : State) (who : Who) (src dst : Word) (n : Nat) (p : Part) : Bool :=
  let on := fun (a : Word) (k : AccKind) => match s.resolve who a k with
    | .ok (.mem key) => Part.holds p key
    | _ => false
  (List.range (n / 256 + 2)).any fun j =>
    let t := BitVec.ofNat 64 (min (256 * j) (n - 1))
    on (src + t) .read || on (dst + t) .write

/-- A COPY of a queue moves on at piece `k` (R329). One that touches a part that has failed completes COPYERR, with the
status of a copy at a contained core (R375, R393; log 32). -/
def State.moveEntry (s : State) (q : Nat) (err : Bool) (e : QEntry) (src dst : Word) (n : Nat) (x : Work) (k : Nat) : State :=
  let rcb := (s.queueAt q).reg.qrcb
  let core := s.firstCore rcb
  let who := s.regionWho rcb core
  let l := plainLayout who src dst n
  if s.hub.lost.any (s.copyTouches who src dst n) then s.finishEntry q e.id 0x0A 0x03
  else if l.count ≤ x.pos then s.finishEntry q e.id 0 0
  else match s.movePiece core who err l x (x.turn l.count (k % l.count)) (k / l.count) with
    | .on t y => t.modQueue q fun z => { z with
        entries := z.entries.map fun f => if f.id = e.id then { f with copy := some (src, dst, n, y) } else f }
    | .fail t _ c => t.finishEntry q e.id 0x0A (c.zeroExtend 64)

/-- COPY: a block-transfer engine copy, which starts, and the interpreter goes on; it ends with the mailbox status in DETAIL
(R214, R329, R331; log 28). -/
def execCopyEntry (q : Nat) (s : State) : Host.Outcome State Fault Refusal :=
  .next (s.onEntry q (fun ws => entryType ws == 4) fun id ws t =>
      let m := (word ws 3).toNat
      if m = 0 ∨ 2 ^ 40 < m then (t, some Status.badentry)
      else if (word ws 1).toNat / 2 ^ 60 ≠ 0 ∨ (word ws 2).toNat / 2 ^ 60 ≠ 0 then (t, some (0x0A, 0x04))
      else
        (t.modQueue q fun x => { x with
          entries := x.entries.map fun e => if e.id = id then { e with copy := some (word ws 1, word ws 2, m, Work.init) } else e }, none))

/-- ENGINE_OPERATION_COMPLETE at piece `n` / 2^16 of operation `n` mod 2^16: of the list of core `core`, or, from 2,048 on, of
the entries of queue `core` - 2,048, where a COPY stands (R213, R329). -/
def execEngineOperationComplete (core n : Nat) (io : IoReply) (s : State) : Host.Outcome State Fault Refusal :=
  .next (if core < 2048 then s.moveOp core (n % 2 ^ 16) (n / 2 ^ 16) io
    else match (s.queueAt (core - 2048)).copyAt (n % 2 ^ 16) with
      | none => s
      | some (e, src, dst, m, x) => s.moveEntry (core - 2048) (io.status != 0) e src dst m x (n / 2 ^ 16))

/-- Every living task, in slots and off them. -/
def State.everyCtx (s : State) : List Ctx := s.cores.flatMap fun e =>
  (e.2.slots.toList.filter fun sl => sl.st != .empty && !sl.ctx.trail).map (·.ctx) ++ e.2.offSlot

/-- A debug HALT whose target has ended completes with PROTECTION: no such task lives (log 29). A DEBUG entry that is accepted and
still waits to act is none. -/
def State.endHalts (s : State) (q : Nat) : State :=
  ((s.queueAt q).entries.filter fun e => e.typ == 9 && e.result.isNone && (s.queueAt q).held.all (·.1 != e.id) &&
      !(s.everyCtx.any fun c => c.dbgHalt == some (q, e.id))).foldl
    (fun s e => s.finishEntry q e.id Status.protection.1 0) s

/-- FENCE completes when every earlier entry of the queue has completed; it is accepted, and holds its interpreter until then. One that SKIPIF
passes over, or that has a reserved bit set, completes without acting. An entry
inside a called list does not wait for its own CALL (R328, R329). -/
def execFenceEntry (q : Nat) (s : State) : Host.Outcome State Fault Refusal :=
  let t := s.endHalts q
  let x := t.queueAt q
  let passed := match t.nextEntry q with
    | some (.ok ws) => entryBad ws || (x.calls.isEmpty && x.skip != 0)
    | _ => false
  let fence := fun (ws : List Word) => entryType ws == 10
  let mine := match t.nextEntry q with
    | some (.ok ws) => fence ws
    | _ => false
  let u := if mine && !passed then t.holdEntry q else t
  .next (if passed || (u.queueAt q).entries.all fun e => e.result.isSome || e.typ == 6 || e.id == u.nextId q then
      u.onEntry q fence (pureEntry fun _ v => (v, Status.ok))
    else u)

/-! ### LAUNCH (R332 to R339) -/

/-- The launch header (R333). -/
structure Header where
  entry : Word
  codeBase : Word
  codeEnd : Word
  loc : Nat
  priv : Nat
  rww : Nat
  rws : Nat
  flags : Nat
  rnd : BitVec 5
  objs : Word
  nobj : Nat
  trapVec : Word
  mvt : Word
  mvtLen : Nat

/-- The words of a launch header (R333). -/
def headerOf (w : List Word) : Header :=
  { entry := word w 0, codeBase := word w 1, codeEnd := word w 2, loc := bitsOf (word w 3) 31 0, priv := bitsOf (word w 3) 63 32
    rww := bitsOf (word w 4) 31 0, rws := bitsOf (word w 4) 63 32, flags := bitsOf (word w 5) 3 0
    rnd := if bitsOf (word w 5) 9 9 = 1 then BitVec.ofNat 5 (bitsOf (word w 5) 8 4) else 0
    objs := word w 6, nobj := bitsOf (word w 7) 15 0, trapVec := word w 8, mvt := word w 9, mvtLen := bitsOf (word w 10) 8 0 }

/-- A value of a header outside its limits (R63, R333). -/
def Header.bad (h : Header) : Bool :=
  decide (8 ≤ h.flags) || h.loc % 64 != 0 || decide (786432 < h.loc) || h.priv % 64 != 0 || decide (h.rww < h.rws) ||
    (h.rww != 0 && h.rws == 0) || decide (2 ^ 31 ≤ h.rww) || decide (256 < h.mvtLen) || (h.nobj != 0 && h.objs.toNat % 8 != 0)

/-- A record of OBJS: address, offset, kind, count (R333). -/
structure ObjRec where
  addr : Word
  off : Nat
  kind : Nat
  count : Nat

/-- The record in three words, or none where a value is outside its limits (R65, R333). -/
def objRec (rws : Nat) (w : List Word) : Option ObjRec :=
  let d := word w 1
  let r : ObjRec := { addr := word w 0, off := bitsOf d 31 0, kind := bitsOf d 35 32, count := (word w 2).toNat }
  if bitsOf d 63 36 ≠ 0 ∨ 5 < r.kind ∨ rws ≤ r.off ∨ r.addr.toNat % 64 ≠ 0 then none
  else if r.kind = 2 then (if 1 ≤ r.count ∧ r.count ≤ 65535 then some r else none)
  else if r.kind = 1 ∨ r.count = 0 then some r
  else none

/-- Values that a list of results holds, or the first failure. -/
def allOk {α : Type} : List (Except Status α) → Except Status (List α)
  | [] => .ok []
  | .error e :: _ => .error e
  | .ok a :: l => match allOk l with
    | .error e => .error e
    | .ok as => .ok (a :: as)

/-- The words of `n` at an address, with FAULT and the cause where the read faults (R335). -/
def State.launchWords (s : State) (q : Nat) (p : Word) (n : Nat) : Except Status (List Word) :=
  match s.entryWords q p n with
  | .error c => .error (Status.fault c)
  | .ok ws => .ok ws

/-- The static objects of a header: their keys with their records (R335, R65; log 30). -/
def State.launchObjs (s : State) (q : Nat) (h : Header) : Except Status (List (Nat × ObjRec)) :=
  allOk ((List.range h.nobj).map fun k => match s.launchWords q (h.objs + BitVec.ofNat 64 (24 * k)) 3 with
    | .error e => .error e
    | .ok ws => match objRec h.rws ws with
      | none => .error Status.badentry
      | some r =>
        if r.addr.toNat / 2 ^ 60 ≠ 0 then .error (Status.fault Cause.addrTag)
        else
          let rcb := (s.queueAt q).reg.qrcb
          match s.objAt (s.regionWho rcb (s.firstCore rcb)) r.addr .write true with
          | .error t => .error (Status.fault t.cause)
          | .ok key => .ok (key, r))

/-- The lists of a schedule table: cores and entries (R339). -/
def State.launchLists (s : State) (q : Nat) (p : Word) : Except Status (List (Nat × List Word)) :=
  match s.launchWords q p 1 with
  | .error e => .error e
  | .ok ws =>
    if word ws 0 = 0 then .error Status.badentry
    else allOk ((List.range (word ws 0).toNat).map fun k => match s.launchWords q (p + BitVec.ofNat 64 (8 + 16 * k)) 2 with
      | .error e => .error e
      | .ok d =>
        let n := bitsOf (word d 0) 63 32
        if bitsOf (word d 0) 31 11 ≠ 0 ∨ n = 0 then .error Status.badentry
        else if 1024 < n then .error Status.noresource
        else match s.launchWords q (word d 1) n with
          | .error e => .error e
          | .ok l => .ok (bitsOf (word d 0) 10 0, l))

/-- The members of a core set in spread order: by core in its cluster, then cluster, then die (R338). -/
def spreadOrder (inSet : Nat → Bool) : List Nat := ((List.range 8).flatMap fun k => (List.range 64).flatMap fun cl =>
  (List.range 4).map fun die => die * 512 + cl * 8 + k).filter inSet

/-- A LAUNCH whose checks have passed. -/
structure Launch where
  parent : Word
  h : Header
  ntasks : Nat
  prio : Nat
  flags : Nat
  heirSel : Bool
  first : Nat
  ncores : Nat
  where_ : List Nat
  args : List (List Word)
  objs : List (Nat × ObjRec)
  lists : List (Nat × List Word)
  rwlo : Nat
  rwhi : Nat
  brank : Nat
  carve : Bool

/-- Local-store bytes of a core (R37). -/
def localStoreBytes : Nat := 786432

/-- The lowest offset at which `size` bytes fit among the allocations of a core, in rising order. -/
def fitIn (size : Nat) : Nat → List (Word × Nat × Nat) → Option Nat
  | at_, [] => if at_ + size ≤ localStoreBytes then some at_ else none
  | at_, (_, b, n) :: l => if at_ + size ≤ b then some at_ else fitIn size (max at_ (b + n)) l

/-- An allocation put into the list of a core in rising order. -/
def insertAlloc (r : Word) (b n : Nat) : List (Word × Nat × Nat) → List (Word × Nat × Nat)
  | [] => [(r, b, n)]
  | e :: l => if b < e.2.1 ∨ (b = e.2.1 ∧ n = 0) then (r, b, n) :: e :: l else e :: insertAlloc r b n l

/-- Is a scratchpad owned by a region that is not an ancestor (R306)? -/
def State.padTaken (s : State) (parent : Word) (cluster : Nat) : Bool := match (s.clusterAt cluster).padOwner with
  | some o => !s.descends o 64 parent
  | none => false

/-- The limits of the words of a LAUNCH (R332). -/
def launchBad (ws : List Word) : Bool :=
  let w2 := word ws 2
  let w3 := word ws 3
  let nt := bitsOf w2 15 0
  let prio := bitsOf w2 23 20
  nt == 0 || decide (32768 < nt) || bitsOf w2 17 16 == 3 || bitsOf w2 19 18 != 0 || (decide (12 ≤ prio) && prio != 15) ||
    bitsOf w2 63 27 != 0 || bitsOf w3 15 11 != 0 || bitsOf w3 63 28 != 0 ||
    (w3 != 0 && (bitsOf w3 27 16 == 0 || decide (2048 < bitsOf w3 27 16))) || (bitsOf w2 17 16 != 2 && word ws 7 != 0) ||
    (word ws 1).toNat % 64 != 0

/-- The checks of a LAUNCH in the order of R335: the first failure ends it. -/
def State.checkLaunch (s : State) (q : Nat) (ws : List Word) : Except Status Launch := do
  let w2 := word ws 2
  let nt := bitsOf w2 15 0
  let policy := bitsOf w2 17 16
  if launchBad ws then .error Status.badentry
  let hw ← s.launchWords q (word ws 1) 11
  let h := headerOf hw
  let flat ← if word ws 4 = 0 then .ok [] else s.launchWords q (word ws 4) (10 * nt)
  if h.bad then .error Status.badentry
  let objs ← s.launchObjs q h
  let lists ← if policy = 2 then s.launchLists q (word ws 7) else .ok []
  let x := s.queueAt q
  let parent := if word ws 5 = 0 then x.reg.qrcb else word ws 5
  if !s.hub.regions.contains parent then .error Status.protection
  if s.owner parent ≠ x.reg.owner.toNat then .error Status.protection
  let w3 := word ws 3
  let first := if w3 = 0 then s.firstCore parent else bitsOf w3 10 0
  let num := if w3 = 0 then s.numCores parent else bitsOf w3 27 16
  if first < s.firstCore parent ∨ s.firstCore parent + s.numCores parent < first + num then .error Status.noresource
  let um := h.flags % 2 = 1
  let member := fun (n : Nat) => decide (first ≤ n) && decide (n < first + num) && !(decide um && (s.clusterAt (clusterOfCore n)).nomx)
  let members := if policy = 0 then spreadOrder member else ((List.range num).map fun k => first + k).filter member
  let places : List Nat := if policy = 2 then lists.map (·.1) else members
  let count := places.length
  if count = 0 then .error Status.noresource
  if policy = 2 ∧ (places.any fun n => !member n || match (s.coreAt n).sched with
      | some l => s.hub.regions.contains l.rcb
      | none => false) then .error Status.noresource
  if policy = 2 ∧ !places.Nodup then .error Status.noresource
  let slotCap := max (s.slotCap parent) 1
  let at_ := fun (t : Nat) => places.getD (if policy = 1 then t / slotCap % count else t % count) 0
  let used := (List.range nt).map at_
  if used.any fun n => (fitIn h.loc 0 (s.coreAt n).alloc).isNone then .error Status.noresource
  if bitsOf (s.rcbWord parent 0x68) 63 0 < nt * h.priv then .error Status.noresource
  if um ∧ (used.any fun n => s.padTaken parent (clusterOfCore n)) then .error Status.noresource
  let own := s.windowOwner 64 parent
  let w6 := word ws 6
  let lo := bitsOf w6 31 0
  let width := bitsOf w6 63 32
  if h.rww = 0 ∧ w6 ≠ 0 then .error Status.badentry
  if h.rww ≠ 0 ∧ w6 ≠ 0 ∧ (width ≠ h.rww + 1 ∨ lo < s.rwLo own ∨ s.nextChild own < lo + width) then .error Status.badentry
  if h.rww ≠ 0 ∧ w6 = 0 ∧ s.dynTop own < s.nextChild own + h.rww + 1 then .error Status.rankExhausted
  let lo' := if h.rww = 0 then s.rwLo parent else if w6 = 0 then s.nextChild own else lo
  let hi := if h.rww = 0 then s.rwHi parent else lo' + h.rww
  let args := (List.range nt).map fun t => if word ws 4 = 0 then
      [BitVec.ofNat 64 t, ((objs.head?).map fun o => o.2.addr).getD 0]
    else (flat.drop (10 * t)).take 10
  .ok { parent := parent, h := h, ntasks := nt
        prio := if bitsOf w2 23 20 = 15 then s.rcbPrio parent else bitsOf w2 23 20
        flags := h.flags + bitsOf w2 25 25 * 8 + bitsOf w2 24 24 * 32, heirSel := bitsOf w2 26 26 = 1
        first := first, ncores := num, where_ := used, args := args, objs := objs, lists := lists, rwlo := lo', rwhi := hi
        brank := if h.rww = 0 then (s.obj (barrierOf parent)).rank else hi, carve := decide (h.rww ≠ 0 ∧ w6 = 0) }

/-- Words stored one after another. -/
def State.storeWords (s : State) (key : Nat) : List Nat → State
  | [] => s
  | w :: ws => (s.store key 8 w).storeWords (key + 8) ws

/-- The RCB of a new region (R334, R184). -/
def State.fillRcb (s : State) (rcb : Word) (rgn q index : Nat) (l : Launch) : State :=
  let p := l.parent
  let own := l.h.rww ≠ 0
  let nextchild := if own then l.rwlo else s.nextChild p
  let dyntop := if own then l.rwhi - l.h.rws else s.dynTop p
  s.storeWords rcb.toNat
    ([p.toNat, rgn + l.prio * 2 ^ 24 + l.flags * 2 ^ 32 + s.slotCap p * 2 ^ 40, l.h.codeBase.toNat, l.h.codeEnd.toNat,
      (s.ptRoot p).toNat, l.h.mvt.toNat, l.h.mvtLen, l.h.trapVec.toNat, l.rwlo + l.rwhi * 2 ^ 32,
      (if own then l.h.rws else 0) + nextchild * 2 ^ 32, dyntop + l.heirSel.toNat * 2 ^ 32, l.first + l.ncores * 2 ^ 16,
      l.h.loc + l.h.priv * 2 ^ 32, (s.rcbWord p 0x68).toNat, (s.rcbWord p 0x70).toNat % 2 ^ 48, q + index * 2 ^ 32] ++
      List.replicate 16 0)

/-- Bytes of memory set to zero, with the poison of the units they cover whole (R305, R321). -/
def State.zeroRange (s : State) (key n : Nat) : State :=
  { s with
    mem := s.mem.filter fun c => !(decide (key ≤ c.1) && decide (c.1 < key + n))
    hub := { s.hub with losses := if s.hub.losses.isEmpty then [] else .zeroed key n :: s.hub.losses }
    poison := s.poison.filter fun u => !(decide (key ≤ u) && decide (u + unitSize (spaceOf u) ≤ key + n)) }

/-- The local-store allocations of a region, zeroed (R305): on every core of its set that has room (log 31). -/
def State.grantLocal (s : State) (rcb : Word) (l : Launch) : State :=
  (List.range l.ncores).foldl (fun s k =>
    let n := l.first + k
    match fitIn l.h.loc 0 (s.coreAt n).alloc with
    | some b => (s.modCore n fun c => { c with alloc := insertAlloc rcb b l.h.loc c.alloc }).zeroRange (localBase n + b) l.h.loc
    | none => s) s

/-- The scratchpads of the clusters on which a USES_MATRIX region is placed get it as owner, zeroed, where they have none
(R305, R306). -/
def State.grantPads (s : State) (rcb : Word) (l : Launch) : State :=
  if l.h.flags % 2 = 0 then s
  else (l.where_.map clusterOfCore).foldl (fun s cl => if (s.clusterAt cl).padOwner.isSome then s
    else (s.modCluster cl fun c => { c with padOwner := some rcb }).zeroRange (padBase cl) (2 * 2 ^ 20)) s

/-- A task waits as a kid packet in its core's run queue, or in the launch list when that is full (R340). -/
def State.placeTask (s : State) (n : Nat) (c : Ctx) : State :=
  (s.modCore n fun x =>
    let k : Kid := { ctx := c, seq := s.seq, migrating := none }
    if x.runq.length < 64 ∧ x.launches.isEmpty then { x with runq := x.runq ++ [k] } else { x with launches := x.launches ++ [k] }).bump

/-- The RCB that service firmware reserves for a LAUNCH: 256 bytes of stacked DRAM, aligned (R334; log 16). -/
def rcbBase (n : Nat) : Word := BitVec.ofNat 64 (Config.rcbArea n % 2 ^ 31 * 2 ^ 8)

/-- The instruction caches of a region's cores flushed: its code bounds have changed (R319). -/
def State.flushCode (s : State) (rcb : Word) : State :=
  { s with cores := s.cores.map fun e => (e.1, if s.inCoreSet rcb e.1 then { e.2 with icache := [] } else e.2) }

/-- The steps of a LAUNCH after its checks (R335, R338, R339). -/
def State.doLaunch (s : State) (q id index : Nat) (l : Launch) : State :=
  let rcb := rcbBase s.seq
  let rgn := s.seq % 2 ^ 24
  let own := s.windowOwner 64 l.parent
  let s1 := if l.carve then s.store (own.toNat + 0x4C) 4 (l.rwhi + 1) else s
  let s2 := (s1.fillRcb rcb rgn q index l).flushCode rcb
  let s3 := l.objs.foldl (fun s e => (s.newObj e.1 (freshObj e.2.kind (l.rwhi - l.h.rws + e.2.off) e.2.count)).pokeIdle e.1) s2
  let s4 := s3.putObj (barrierOf rcb) { freshObj 2 l.brank l.ntasks with owed := l.ntasks }
  let s5 := s4.addSeat l.parent
  let s6 := ((s5.modHub fun h => { h with
    regions := h.regions ++ [rcb]
    starts := h.starts ++ [(rcb, l.h.entry, l.h.rnd)] }).grantLocal rcb l).grantPads rcb l
  let s7 := l.lists.foldl (fun s e => s.modCore e.1 fun c => { c with sched := some { rcb := rcb, list := e.2, cursor := 0 } }) s6
  let s8 := (s7.modQueue q fun x => { x with entries := x.entries.map fun e => if e.id = id then { e with launch := some rcb } else e }).bump
  let seat := s8.seatObl rcb
  (l.where_.zip l.args).foldl (fun s e =>
    s.placeTask e.1 { s.newTask e.1 rcb (BitVec.ofNat 48 s.seq) l.h.entry e.2 .launched [seat] with args := e.2 }) s8

/-- LAUNCH creates a region; it completes when the region completes (R328, R335). -/
def execLaunchEntry (q : Nat) (s : State) : Host.Outcome State Fault Refusal :=
  .next (s.onEntry q (fun ws => entryType ws == 1) fun id ws t => match t.checkLaunch q ws with
    | .error r => (t, some r)
    | .ok l => (t.doLaunch q id (s.queueAt q).head l, none))

/-! ### DEBUG entries (R345, R385) -/

/-- A session of a queue for a task (R345, R386): the one it has, else the lowest index that no living task names. -/
def State.allocSession (s : State) (q : Nat) (c : Ctx) : Option (BitVec 8 × State) :=
  if c.bpSession ≠ 0 then some (c.bpSession, s)
  else
    let busy := fun (k : Nat) => s.everyCtx.any fun x => x.bpSession.toNat == k
    (((List.range 255).map (· + 1)).find? fun k => !busy k).map fun k =>
      (BitVec.ofNat 8 k, s.modHub fun h => { h with sessions := tabPut h.sessions k q })

/-- A DEBUG entry of one sub-operation: its reserved bits and its target, which must belong to the queue's OWNER. -/
def State.debugEntry (s : State) (q sub : Nat) (f : Nat → List Word → Ctx → State → State × Option Status) : State :=
  s.onEntry q (fun ws => entryType ws == 9 && bitsOf (word ws 1) 2 0 == sub) fun id ws t =>
    if (word ws 1).toNat ≠ sub then (t, some Status.badentry)
    else if bitsOf (word ws 2) 63 48 ≠ 0 then (t, some Status.protection)
    else match t.taskCtx ((word ws 2).truncate 48) with
      | none => (t, some Status.protection)
      | some (_, c) =>
        if t.owner c.rcb ≠ (t.queueAt q).reg.owner.toNat then (t, some Status.protection) else f id ws c t

/-- DEBUG HALT (R385): it is recorded on a stopped task, withdraws a wait in state 6 at once, and otherwise waits until
the task would issue. -/
def execDebugHalt (q : Nat) (s : State) : Host.Outcome State Fault Refusal :=
  .next (s.debugEntry q 0 fun id _ c t =>
    let arm := fun (u : State) => u.modTask c.tid fun x => { x with dbgHalt := some (q, id) }
    match t.findTask c.tid with
    | some (n, i) => match (t.slotAt n i).st with
      | .faulted => ((arm t).noteHalt n i q id, none)
      | .object =>
        if c.wait.isSome then
          (((arm (t.withdraw c.tid)).modCtxAt n i Ctx.withdrawn).stopTask n i, none)
        else (arm t, none)
      | _ => (arm t, none)
    | none => (arm t, none))

/-- The stopped task that a DEBUG READ, WRITE or RESUME needs (R345). -/
def State.stoppedAt (s : State) (c : Ctx) : Option (Nat × Fin 16) := match s.findTask c.tid with
  | some (n, i) => if (s.slotAt n i).st = .faulted then some (n, i) else none
  | none => none

/-- Does a DEBUG entry that may act on its target wait, as CTXRD, CTXWR and RESUME wait: for the copies of a redundant task to be
level, or for the result that a register is Pending on (R270, R345, R379)? -/
def State.debugHolds (s : State) (q sub : Nat) : Bool := match s.nextEntry q with
  | some (.ok ws) => match s.taskCtx ((word ws 2).truncate 48) with
    | none => false
    | some (_, c) => entryType ws == 9 && (word ws 1).toNat == sub && bitsOf (word ws 2) 63 48 == 0 && !entryBad ws &&
      !((s.queueAt q).calls.isEmpty && (s.queueAt q).skip != 0) && s.owner c.rcb == (s.queueAt q).reg.owner.toNat &&
      match s.stoppedAt c with
      | none => false
      | some (n, i) => !s.settledBoth n i || (sub != 5 && match ctxSel (word ws 3).toNat with
        | some x => (s.ctxAt n i).selPending x
        | none => false)
  | _ => false

/-- A DEBUG entry on a stopped task, once it need not wait; until then it is accepted. -/
def State.debugStopped (s : State) (q sub : Nat) (f : List Word → Option (Nat × Fin 16) → State → State × Status) : State :=
  if s.debugHolds q sub then s.holdEntry q
  else s.debugEntry q sub fun _ ws c t => let r := f ws (t.stoppedAt c) t; (r.1, some r.2)

/-- DEBUG READ acts as CTXRD and writes the value to W5 (R270, R345). -/
def execDebugRead (q : Nat) (s : State) : Host.Outcome State Fault Refusal :=
  .next (s.debugStopped q 1 fun ws at_ t => match at_, ctxSel (word ws 3).toNat with
    | none, _ | _, none => (t, Status.faultOnly)
    | some (n, i), some x => match t.entryKey q (word ws 5) 8 .write with
      | .error _ => (t, Status.faultOnly)
      | .ok key => (t.store key 8 ((t.ctxAt n i).selRead x).toNat, Status.ok))

/-- DEBUG WRITE acts as CTXWR with the value in W4 (R270, R345). -/
def execDebugWrite (q : Nat) (s : State) : Host.Outcome State Fault Refusal :=
  .next (s.debugStopped q 2 fun ws at_ t => match at_, ctxSel (word ws 3).toNat with
    | none, _ | _, none => (t, Status.faultOnly)
    | some (n, i), some x =>
      if (ctxwrFault t (t.ctxAt n i) x (word ws 4)).isSome then (t, Status.faultOnly)
      else (t.modBoth n i fun y => y.selWrite x (word ws 4), Status.ok))

/-- A breakpoint word set in a task, in both copies (R280, R379). -/
def State.setBp (s : State) (tid : BitVec 48) (f : Ctx → Ctx) : State := match s.findTask tid with
  | some (n, i) => s.modBoth n i f
  | none => s.modTask tid f

/-- DEBUG SETBP writes breakpoint word W3 of the task and binds it to a session (R280, R345). -/
def execDebugSetbp (q : Nat) (s : State) : Host.Outcome State Fault Refusal :=
  .next (s.debugEntry q 3 fun _ ws c t =>
    if 3 < (word ws 3).toNat ∨ bitsOf (word ws 4) 2 1 ≠ 0 then (t, some Status.badentry)
    else match t.allocSession q c with
      | none => (t, some Status.noresource)
      | some (k, u) => (u.setBp c.tid fun x =>
          { x with bp := x.bp.set (Fin.ofNat 4 (word ws 3).toNat) (word ws 4), bpSession := k }, some Status.ok))

/-- DEBUG CLRBP clears breakpoint word W3 of the task (R345). -/
def execDebugClrbp (q : Nat) (s : State) : Host.Outcome State Fault Refusal :=
  .next (s.debugEntry q 4 fun _ ws c t =>
    if 3 < (word ws 3).toNat then (t, some Status.badentry)
    else (t.setBp c.tid fun x => { x with bp := x.bp.set (Fin.ofNat 4 (word ws 3).toNat) 0 }, some Status.ok))

/-- DEBUG RESUME acts as RESUME (R271, R345): a task that is not in state 8 is left as it is. -/
def execDebugResume (q : Nat) (s : State) : Host.Outcome State Fault Refusal :=
  .next (s.debugStopped q 5 fun _ at_ t => match at_ with
    | some (n, i) => (t.resumeBoth n i, Status.ok)
    | none => (t, Status.ok))

/-! ### Completion records and host memory (R326, R331, R387 to R389) -/

/-- A completion record (R331). -/
def recordBytes (e : QEntry) (st : BitVec 8) (d time : Word) : List Byte :=
  bytesLE 8 (e.index % 2 ^ 32 + e.tag.toNat * 2 ^ 32 + e.typ.toNat * 2 ^ 48 + st.toNat * 2 ^ 56) ++ bytesLE 8 d.toNat ++
    bytesLE 8 time.toNat ++ bytesLE 8 0

/-- The record of the oldest accepted entry, if it has finished: DONE advances, and MSI-X vector `q` fires (R326,
R388). The interpreter of a registered queue writes it, and none while a warm reset runs (R392). -/
def State.writeRecord (s : State) (q : Nat) : State :=
  let x := s.queueAt q
  match if x.reg.valid && !s.hub.warm then x.entries.find? fun e => !e.listed else none with
  | none => s
  | some e => match e.result with
    | none => s
    | some (st, d, time) =>
      let at_ := hostKey (x.reg.cpl.toNat + e.index % 2 ^ x.reg.log2n.toNat * 32)
      ((s.storeBytes at_ (recordBytes e st d time)).modQueue q fun x => { x with
        entries := x.entries.filter fun y => y.id != e.id && !(y.listed && y.result.isSome && x.calls.isEmpty)
        done := (x.done + 1) % 2 ^ 32
        stops := x.stops - 1 }).modHub fun h => { h with notices := h.notices ++ [.msix q] }

/-- COMPLETION_RECORD (R326, R331). -/
def execCompletionRecord (q : Nat) (s : State) : Host.Outcome State Fault Refusal := .next ((s.endHalts q).writeRecord q)

/-- May the host reach a byte: in its own memory, or in the HDM range (R387, R389)? -/
def hostReaches (key : Nat) : Bool := match spaceOf key with
  | .host => true
  | .dram _ => inHdm key
  | _ => false

/-- HOST_MEMORY_ACCESS: a host access to host memory, or to the HDM range through CXL.mem, performed at its home as a plain
access (R387, R389). A read changes nothing that a program can see. -/
def execHostMemoryAccess (addr : Nat) (wr : Bool) (data : List Byte) (s : State) : Host.Outcome State Fault Refusal :=
  .next (if wr && (List.range data.length).all fun k => hostReaches (addr + k) then s.storeBytes addr data else s)

end Sys2Proof.Machine
end

