-- ==== Sys2Proof/Machine/Fabric.lean ====
section
/-! DEFINITION. The Qworix fabric as this device sees it: packets that arrive, counters and releases, groups, reductions
and death (20, R346 to R372), and the loss of a part (18, R311; 24, R393). Peers are the environment (log 13), and the
encodings of ARG, RTAG and K that the spec does not give are those of log 18. -/

namespace Sys2Proof.Machine

/-! ### Arrival (R349 to R352) -/

/-- A packet leaves with its fields as they stand: a copy that a switch passes on (R363). -/
def State.forward (s : State) (p : Packet) : State := { s with net := s.net ++ [p] }

/-- A packet is dropped and counted in the error log (R350, R352, R357, R363, R370). -/
def State.logDrop (s : State) : State := s.modHub fun h => { h with errlog := h.errlog + 1 }

/-- A packet's age in µs, modulo 4,096 (R351). -/
def State.age (s : State) (p : Packet) : Nat := (s.clk / 1600 + 4096 - p.birth.toNat) % 4096

/-- The packets on their way once the clk is `clk`: those that have reached 498 µs are gone (R293, R351). The time that has
passed is added to the age that each had, so no packet looks young again after 4,096 µs. -/
def State.purged (s : State) (clk : Nat) : List Packet :=
  s.net.filter fun p => decide (s.age p + (clk / 1600 - s.clk / 1600) < 498)

/-- The first clk at which a time of `ms` milliseconds that began at `since` is over. -/
def State.over (s : State) (since ms : Nat) : Bool := decide (since + ms * 1600000 ≤ s.clk)
/-- HOLD in ms (R352). -/
def State.holdMs (s : State) : Nat := max 1 s.hub.hold

/-- Does any link carry traffic (R346)? A link that has not trained carries none (R399). -/
def Hub.linked (h : Hub) : Bool := (List.range 48).any fun l => (tabGet h.links l).getD false

/-- Is a peer live and of this device's partition (R352)? -/
def State.peerOk (s : State) (p : BitVec 12) : Bool := match tabGet s.hub.peers p.toNat with
  | some (.live, true) => true
  | _ => false

/-- The arrival of a packet: it is no longer on its way; an old one is discarded (R351), and one from a peer that is
not live or of another partition is dropped and counted (R352). `here` says that the packet is for this device; nothing
arrives from another device over links that are down (R346). -/
def State.arrive (s : State) (p : Packet) (here : Bool) (f : State → State) : State :=
  if !here || !(s.hub.linked || p.src == s.hub.peer) then s
  else
    let t := { s with net := s.net.erase p }
    if 498 ≤ s.age p then t
    else if !s.peerOk p.src then t.logDrop
    else f t

/-- A packet of a type that is addressed to this device (R349, R350). -/
def State.mine (s : State) (p : Packet) (typ : BitVec 8) : Bool := p.dst == s.hub.peer && p.typ == typ

/-- HEARTBEAT: a flit on an idle link changes nothing that a program can see (R346). -/
def execHeartbeat (_link : Nat) (s : State) : Host.Outcome State Fault Refusal := .next s
/-- FLIT_RESEND: a program sees a resent flit only as delay (R346). -/
def execFlitResend (_link : Nat) (s : State) : Host.Outcome State Fault Refusal := .next s

/-- LINK_RETRAIN: the link carries traffic again (R346). -/
def execLinkRetrain (link : Nat) (s : State) : Host.Outcome State Fault Refusal :=
  .next (s.modHub fun h => { h with links := tabPut h.links link true })

/-- PACKET_EXPIRY: a packet of 498 µs or more is discarded (R351). -/
def execPacketExpiry (n : Nat) (s : State) : Host.Outcome State Fault Refusal :=
  .next (match s.net[n]? with
    | some p => if 498 ≤ s.age p then { s with net := s.net.eraseIdx n } else s
    | none => s)

/-- A TYPE that the device does not use (R350). -/
def execUnassignedPacketType (p : Packet) (s : State) : Host.Outcome State Fault Refusal :=
  .next (s.arrive p (p.dst == s.hub.peer && !typAssigned p.typ) State.logDrop)

/-! ### Exposed windows (R353) -/

/- The reasons of a refusal (R227). -/
namespace Reason
def revoked : BitVec 8 := 1
def outOfWindow : BitVec 8 := 2
def noObject : BitVec 8 := 3
def peerDead : BitVec 8 := 4
def shortfall : BitVec 8 := 5
def closed : BitVec 8 := 6
def poisoned : BitVec 8 := 7
end Reason

/-- Does an entry cover an access of a peer (R353)? -/
def WinEntry.covers (e : WinEntry) (peer : BitVec 12) (off n : Nat) : Bool :=
  e.valid && (e.any || e.importer == peer) && decide (e.obase.toNat ≤ off) && decide (off + n ≤ e.obase.toNat + e.size.toNat)

/-- The entry that decides an access: the lowest-numbered one that covers it (R353). -/
def State.windowFor (s : State) (peer : BitVec 12) (off n : Nat) : Option WinEntry :=
  ((s.hub.windows.find? fun e => WinEntry.covers e.2 peer off n)).map (·.2)

/-- The active region with a region number. -/
def State.regionNamed (s : State) (rgn : Nat) : Option Word := s.hub.regions.find? fun r => s.rcbRgn r == rgn

/-- The keys of `n` bytes at an offset of this device's window, checked as R353 gives, or the reason of the refusal. -/
def State.windowKeys (s : State) (peer : BitVec 12) (off n : Nat) (right : WinEntry → Bool) (k : AccKind) :
    Except (BitVec 8) (List Nat) :=
  match s.windowFor peer off n with
  | none => .error Reason.outOfWindow
  | some e =>
    if !right e then .error Reason.outOfWindow
    else if e.revoked then .error Reason.revoked
    else match s.regionNamed e.rgn.toNat with
      | none => .error Reason.outOfWindow
      | some r =>
        let keys := (List.range n).map fun i =>
          match s.resolve (s.regionWho r (s.firstCore r)) (e.vbase + BitVec.ofNat 64 (off - e.obase.toNat + i)) k with
          | .ok (.mem key) => some key
          | _ => none
        if keys.all (·.isSome) then .ok (keys.filterMap id) else .error Reason.outOfWindow

/-- Keys cut into runs that are contiguous and cross no 64-byte line: for each its place in the list, its first key and how many
there are. -/
def runsOf : Nat → List Nat → List (Nat × Nat × Nat)
  | _, [] => []
  | i, k :: l => match runsOf (i + 1) l with
    | (j, k2, n) :: r => if k2 = k + 1 ∧ k2 % 64 ≠ 0 then (i, k, n + 1) :: r else (i, k, 1) :: (j, k2, n) :: r
    | [] => [(i, k, 1)]

/-- The parts of a run that are performed at one instant each: aligned words of `u` bytes, or what the run has of them (R156,
R281). -/
def wordsIn (u : Nat) (r : Nat × Nat × Nat) : List ServePart :=
  let (place, k, n) := r
  (List.range ((k % u + n + u - 1) / u)).map fun w =>
    let lo := max k (u * (k / u + w))
    { line := k, len := n, key := lo, place := place + (lo - k), n := min (k + n) (u * (k / u + w + 1)) - lo }

/-- The parts of a peer's access to these keys: 4-byte lanes of the 64 bytes of a vector access, else 8-byte words (R156,
R281; log 65). -/
def partsOf (keys : List Nat) : List ServePart := (runsOf 0 keys).flatMap (wordsIn (if keys.length = 64 then 4 else 8))

/-- Does the home drop every write to a key (R311, R375)? -/
def State.dropsAll (s : State) (k : Nat) : Bool := match spaceOf k with
  | .loc c => (s.coreAt c).contained
  | .second p => match tabGet s.hub.expanders p with
    | some (_, up) => !up
    | none => true
  | _ => false

/-- A part of a peer's write is performed; the flag says that the home dropped it (R321, R356, R375). -/
def State.peerPart (s : State) (payload : List Byte) (w : ServePart) (last : Bool) : State × Bool :=
  let bad := s.dropsAll w.line
  (if bad then s else s.storePart w.line w.len w.key w.n (ofBytes ((payload.drop w.place).take w.n)) last,
   bad || s.dropsStore w.line w.len)

/-! ### Answers -/

/-- An answer to a packet (R349): to its sender and endpoint, with its tag. -/
def answer (p : Packet) (typ : BitVec 8) : Packet :=
  { Packet.zero with typ := typ, dst := p.src, dstEp := p.srcEp, rtag := p.rtag, ctr := p.ctr }

/-- What a REFUSE refuses (log 18): ARG bits 9:8. -/
inductive RefuseOf | access | open_ | release
  deriving DecidableEq, Repr
def RefuseOf.code : RefuseOf → Nat
  | .access => 0 | .open_ => 1 | .release => 2

/-- A REFUSE with its reason (R350; log 18). -/
def refusal (p : Packet) (what : RefuseOf) (reason : BitVec 8) : Packet :=
  { answer p 0x0C with arg := BitVec.ofNat 40 (reason.toNat + what.code * 2 ^ 8) }

/-- How a release was decided (R227). -/
inductive Decision | applied | refused (reason : BitVec 8) | timedOut (reason : BitVec 8)
  deriving DecidableEq, Repr

/-- The outcomes of no peer. -/
def Outcome3.none_ : Outcome3 := { applied := 0, refused := 0, timedout := 0, first := none, reason := 0 }
/-- The outcome of one peer. -/
def Decision.outcome (d : Decision) (peer : BitVec 12) : Outcome3 := match d with
  | .applied => { Outcome3.none_ with applied := 1 }
  | .refused r => { Outcome3.none_ with refused := 1, first := some peer, reason := r }
  | .timedOut r => { Outcome3.none_ with timedout := 1, first := some peer, reason := r }
/-- The peers that an outcome counts. -/
def Outcome3.total (o : Outcome3) : Nat := o.applied + o.refused + o.timedout
/-- Outcomes merged (R364): the lowest refused or timed-out peer gives the reason. -/
def Outcome3.merge (a b : Outcome3) : Outcome3 :=
  let second := match a.first, b.first with
    | none, _ => true
    | some _, none => false
    | some x, some y => decide (y < x)
  { applied := a.applied + b.applied, refused := a.refused + b.refused, timedout := a.timedout + b.timedout
    first := if second then b.first else a.first, reason := if second then b.reason else a.reason }

/-- The outcomes in a REPORT (log 18): ARG has the reason and the first peer, the payload the three counts. -/
def Outcome3.fields (o : Outcome3) (p : Packet) : Packet :=
  { p with
    bytes := 6, payload := bytesLE 2 o.applied ++ bytesLE 2 o.refused ++ bytesLE 2 o.timedout
    arg := BitVec.ofNat 40 (o.reason.toNat + ((o.first.map (·.toNat)).getD 0) * 2 ^ 8 + o.first.isSome.toNat * 2 ^ 20) }
/-- The outcomes that a REPORT holds. -/
def outcomeOf (p : Packet) : Outcome3 :=
  let a := p.arg.toNat
  let count := fun (k : Nat) => ofBytes ((p.payload.drop (2 * k)).take 2)
  { applied := count 0, refused := count 1, timedout := count 2
    first := if a / 2 ^ 20 % 2 = 1 then some (BitVec.ofNat 12 (a / 2 ^ 8)) else none, reason := BitVec.ofNat 8 a }

/-- Bits of a flag's ARG (log 18). -/
def Packet.wantsReport (p : Packet) : Bool := p.arg.getLsbD 0
def Packet.closes (p : Packet) : Bool := p.arg.getLsbD 1
def Packet.poisonCode (p : Packet) : Option Nat := if p.arg.getLsbD 2 then some (p.arg.toNat / 2 ^ 8 % 256) else none
/-- A flag that frees the counter of a group open that failed (R354; log 18). -/
def Packet.frees (p : Packet) : Bool := p.arg.getLsbD 3
/-- DOWN of an MWRITE or MFLAG (R369). -/
def Packet.down (p : Packet) : Bool := p.arg.getLsbD 39

/-! ### Group reports (R364) -/

/-- The coordinates of a peer (R347). -/
def Hub.coords (h : Hub) (p : Nat) : Nat × Nat × Nat := (p % max h.dx 1, p / max h.dx 1 % max h.dy 1, p / (max h.dx 1 * max h.dy 1))
/-- The neighbour of a peer through port 0 to 5: +x, −x, +y, −y, +z, −z (R347, R362). -/
def Hub.neighbour (h : Hub) (p port : Nat) : Nat :=
  let (x, y, z) := h.coords p
  let (dx, dy, dz) := (max h.dx 1, max h.dy 1, max h.dz 1)
  let (x', y', z') := match port with
    | 0 => ((x + 1) % dx, y, z)
    | 1 => ((x + dx - 1) % dx, y, z)
    | 2 => (x, (y + 1) % dy, z)
    | 3 => (x, (y + dy - 1) % dy, z)
    | 4 => (x, y, (z + 1) % dz)
    | _ => (x, y, (z + dz - 1) % dz)
  x' + y' * dx + z' * dx * dy
/-- The branches of a group's tree out of this device, by their peers (R362). -/
def State.branches (s : State) (e : GroupEntry) : List (BitVec 12) :=
  ((List.range 6).filter fun i => e.fwd.getLsbD i).map fun i => BitVec.ofNat 12 (s.hub.neighbour s.hub.peer.toNat i)
/-- Has this device declared a peer dead (R360)? -/
def State.peerDead (s : State) (p : BitVec 12) : Bool := match tabGet s.hub.peers p.toNat with
  | some (.dead, _) => true
  | _ => false

/-- A group report on its way to the root (R348, R364; log 18): it goes on virtual network 2 to the device through UP, CTR
holds the handle, and OFFSET the sender in bits 11:0 and the group above. -/
def State.mergePkt (s : State) (m : Merge) : Packet := m.out.fields
  { Packet.zero with
    typ := 0x0D, vn := 2, dst := BitVec.ofNat 12 (s.hub.neighbour s.hub.peer.toNat (s.groupAt m.group).up.toNat)
    ctr := m.handle.zeroExtend 14, k := m.k, rtag := m.rtag, srcEp := m.srcEp
    offset := BitVec.ofNat 48 (m.src.toNat + m.group * 2 ^ 12) }
/-- ARG bit 33 marks the final report of a group (log 18). -/
def groupMark : BitVec 40 := BitVec.ofNat 40 (2 ^ 33)
/-- The final report to the sender. -/
def finalPkt (m : Merge) : Packet :=
  let p := m.out.fields
    { Packet.zero with typ := 0x0D, dst := m.src, dstEp := m.srcEp, k := m.k, rtag := m.rtag, ctr := m.handle.zeroExtend 14 }
  { p with arg := p.arg ||| groupMark }

/-- The same release of the same sender? -/
def Merge.same (a b : Merge) : Bool := a.group == b.group && a.handle == b.handle && a.src == b.src && a.k == b.k

/-- A merged result leaves: up the tree, or to the sender from the root (R364). -/
def State.sendMerge (s : State) (m : Merge) : State :=
  (s.modHub fun h => { h with merges := h.merges.filter fun x => !m.same x }).sendPkt
    (if (s.groupAt m.group).isRoot then finalPkt m else s.mergePkt m)

/-- The branches that lead to dead peers and had not reported before (R361). -/
def State.deadBranches (s : State) (m : Merge) : List (BitVec 12) :=
  (s.branches (s.groupAt m.group)).filter fun p => s.peerDead p && !m.seen.contains p

/-- The members that are missing from a merge count as timed out: beyond a dead branch with reason PEER_DEAD and the dead
peer (R361), else with no peer of their own, unless no other is listed (R364). -/
def State.missingMembers (s : State) (m : Merge) : Outcome3 :=
  let n := (s.groupAt m.group).sub.toNat - m.out.total
  let o := (s.deadBranches m).foldl (fun o p => o.merge { Outcome3.none_ with first := some p, reason := Reason.peerDead })
    { m.out with timedout := m.out.timedout + n }
  if o.first.isNone && n != 0 then { o with first := some s.hub.peer, reason := Reason.shortfall } else o

/-- A merge is ready when it counts the whole subtree (R364), or when only members beyond dead branches are missing
(R361). -/
def State.tryMerge (s : State) (m : Merge) : State :=
  let e := s.groupAt m.group
  if e.sub.toNat ≤ m.out.total then s.sendMerge m
  else if !(s.deadBranches m).isEmpty && (m.own || !e.local_) && ((s.branches e).all fun p => m.seen.contains p || s.peerDead p) then
    s.sendMerge { m with out := s.missingMembers m }
  else s

/-- A decision joins those of its release, from a branch or, with none, from this device itself; the result leaves when it
is ready (R364). -/
def State.joinMerge (s : State) (d : Merge) (branch : Option (BitVec 12)) : State :=
  match s.hub.merges.find? d.same with
  | none => s
  | some m =>
    let m1 := { m with out := m.out.merge d.out, seen := m.seen ++ branch.toList, own := m.own || branch.isNone }
    (s.modHub fun h => { h with merges := h.merges.map fun x => if d.same x then m1 else x }).tryMerge m1

/-- The merge that a flag of a group starts or joins. -/
def State.mergeOf (s : State) (p : Packet) (out : Outcome3) : Merge :=
  { group := p.dst.toNat % 1024, handle := p.ctr.truncate 12, src := p.src, k := p.k, rtag := p.rtag, srcEp := p.srcEp, out := out
    seen := [], own := false, since := s.clk }

/-! ### Counters (R354 to R358) -/

/-- A decision that asks for a report is reported: to the sender, or up the tree of its group (R359, R364, R370). -/
def State.report (s : State) (group : Bool) (p : Packet) (d : Decision) : State :=
  if !(Packet.wantsReport p) then s
  else if group then s.joinMerge (s.mergeOf p (d.outcome s.hub.peer)) none
  else s.sendPkt ((d.outcome s.hub.peer).fields { answer p 0x0D with k := p.k })

/-- A counter changed. -/
def State.modCounter (s : State) (die ix : Nat) (f : Counter → Counter) : State := s.modDie die fun d =>
  match tabGet d.counters ix with
  | some c => { d with counters := tabPut d.counters ix (f c) }
  | none => d

/-- Writes that are being performed for a counter end: nothing of them is performed any more, and they are not counted. -/
def State.endWrites (s : State) (die ix : Nat) : State := s.modHub fun h => { h with
  serving := h.serving.filter fun x => x.ctr != some (die, ix) }

/-- A counter is given back. It serves no other channel until every packet of this one has been discarded: no write of a channel is
performed after a waiter has seen that it failed (R293, R295; log 75). -/
def State.dropCounter (s : State) (die ix : Nat) : State := (s.endWrites die ix).modDie die fun d => { d with
  counters := tabDel d.counters ix, freed := tabPut d.freed ix s.clk }

/-- A counter that may serve a channel: the lowest that is free (R354; log 75). -/
def Die.freeCtr (d : Die) (clk : Nat) : Option Nat := (List.range 4096).find? fun k => (tabGet d.counters k).isNone &&
  match tabGet d.freed k with
  | some t => decide (t + 500 * 1600 ≤ clk)
  | none => true

/-- A counter is freed: flags that it still held are answered as those that name no counter (R357). -/
def State.freeCounter (s : State) (die ix : Nat) (c : Counter) (but : Option (BitVec 48)) : State :=
  (c.flags.filter fun f => some f.pkt.k != but).foldl (fun s f => s.report c.handle.isSome f.pkt (.refused Reason.closed))
    (s.dropCounter die ix)

/-- One obligation on the object of a counter ends, with poison where a code is given (R357, R358, R361). -/
def State.dropOwed (s : State) (key : Nat) (poison : Option Nat) : State :=
  let o := s.obj key
  if o.kind ≠ 4 ∨ !o.valid then s
  else s.changeObj key { o with
    owed := o.owed - 1, poisoned := o.poisoned || poison.isSome
    pcode := if o.poisoned then o.pcode else poison.getD o.pcode }

/-- The release that a flag carries is applied (R357): VALUE rises, a poisoning release poisons, a close lowers OWED. -/
def State.applyRelease (s : State) (die ix : Nat) (c : Counter) (p : Packet) : State :=
  let o := s.obj c.obj
  let ends := (Packet.closes p) || (Packet.poisonCode p).isSome
  let s1 := if o.kind ≠ 4 ∨ !o.valid then s else s.changeObj c.obj { o with
    value := max o.value p.k.toNat, owed := if ends then o.owed - 1 else o.owed
    poisoned := o.poisoned || (Packet.poisonCode p).isSome, pcode := if o.poisoned then o.pcode else (Packet.poisonCode p).getD o.pcode }
  let s2 := s1.report c.handle.isSome p .applied
  if ends then s2.freeCounter die ix c (some p.k)
  else s2.modCounter die ix fun x => { x with
    b := p.c, kn := x.kn + 1, counts := x.counts.drop 1 ++ [0], marks := x.marks.drop 1 ++ [none], tries := 0
    since := s.clk, flags := x.flags.filter fun f => f.pkt.k != p.k }

/-- The release that a flag carries is refused (R357). -/
def State.refuseRelease (s : State) (die ix : Nat) (c : Counter) (p : Packet) (reason : BitVec 8) : State :=
  let s1 := (s.dropOwed c.obj (some 0xF9)).report c.handle.isSome p (.refused reason)
  let s2 := if c.handle.isSome then s1 else s1.sendPkt (refusal p .release reason)
  s2.freeCounter die ix c (some p.k)

/-- The flag of the release that is awaited, k = KN (R357). -/
def Counter.awaited (c : Counter) : Option HeldFlag := c.flags.find? fun f => f.pkt.k.toNat == c.kn % 2 ^ 48

/-- The flag of the next release decided, as long as there is one that can be (R357). A release is refused for its mark, or
because the receiving gateway refused its flag (R353). -/
def State.decideFlags (s : State) (die ix : Nat) : Nat → State
  | 0 => s
  | n + 1 => match tabGet (s.dieAt die).counters ix with
    | none => s
    | some c => match c.awaited with
      | none => s
      | some f =>
        let p := f.pkt
        let got := (c.b.toNat + c.counts.headD 0) % 2 ^ 24
        match (c.marks.headD none).or f.refused with
        | some r => s.refuseRelease die ix c p r
        | none =>
          if got = p.c.toNat then (s.applyRelease die ix c p).decideFlags die ix n
          else if (got + 2 ^ 24 - p.c.toNat) % 2 ^ 24 < 2 ^ 23 then s.refuseRelease die ix c p Reason.shortfall
          else s

/-- The counter that serves a packet: the one its CTR names for its sender, or for a multicast the one recorded for its
sender and handle (R357, R370). -/
def State.counterFor (s : State) (p : Packet) (group : Bool) : Option (Nat × Nat × Counter) :=
  if group then s.dies.findSome? fun e => (e.2.counters.find? fun c => c.2.recorded && c.2.peer == p.src && c.2.handle == some (p.ctr.truncate 12)).map
    fun c => (e.1, c.1, c.2)
  else
    let die := p.ctr.toNat / 4096
    let ix := p.ctr.toNat % 4096
    match tabGet (s.dieAt die).counters ix with
    | some c => if c.peer == p.src && (c.handle.isNone || Packet.frees p) then some (die, ix, c) else none
    | none => none

/-- Entry `k` of a list changed. -/
def setNth {α : Type} (l : List α) (k : Nat) (f : α → α) : List α := l.mapIdx fun j x => if j = k then f x else x

/-- Does a counter take a write: of its generation, and of one of the sixteen releases that it counts (R356)? -/
def Counter.takes (c : Counter) (p : Packet) : Bool :=
  p.gen == c.gen && decide (c.kn ≤ p.k.toNat) && decide (p.k.toNat - c.kn ≤ 15)

/-- A write that the home has performed, or that was refused, is counted (R356). -/
def State.countWrite (s : State) (die ix : Nat) (p : Packet) (mark : Option (BitVec 8)) : State :=
  match tabGet (s.dieAt die).counters ix with
  | none => s
  | some c =>
    if !c.takes p then s
    else
      let j := p.k.toNat - c.kn
      (s.modCounter die ix fun x => { x with
        counts := setNth x.counts j (· + 1), marks := setNth x.marks j fun m => m.or mark }).decideFlags die ix (c.flags.length + 1)

/-- The part of an access of a peer that is performed next: an MWRITE's in any order, another's in the order of its bytes, as the
lanes of a vector are (R156). -/
def State.nextPart (s : State) (x : Serve) : Nat :=
  if x.pkt.typ = 0x02 then (Config.freeValue s.free).toNat % max 1 x.todo.length else 0

/-- The access of a peer in place `n` goes on with one part of it (R281): a write is counted once all of it is performed, and a read is
answered, at once where its data are bad (R160, R321, R356). -/
def State.serve (s : State) (n : Nat) : State := match s.hub.serving[n]? with
  | none => s
  | some x =>
    let k := s.nextPart x
    let rest := x.todo.eraseIdx k
    let shut := fun (t : State) => t.modHub fun h => { h with serving := h.serving.eraseIdx n }
    let keep := fun (t : State) (y : Serve) => { t with free := t.free + 1 }.modHub fun h => { h with serving := h.serving.set n y }
    match x.todo[k]?, x.ctr with
    | none, some (die, ix) => (shut s).countWrite die ix x.pkt (if x.bad then some Reason.poisoned else none)
    | some w, some (die, ix) =>
      let r := s.peerPart x.pkt.payload w (!rest.any fun v => v.line == w.line)
      let y := { x with todo := rest, bad := x.bad || r.2 }
      if rest.isEmpty then (shut r.1).countWrite die ix x.pkt (if y.bad then some Reason.poisoned else none) else keep r.1 y
    | none, none => (shut s).sendPkt { answer x.pkt 0x04 with bytes := x.pkt.bytes, payload := x.got }
    | some w, none =>
      if (s.dataFault w.key w.n false).isSome then
        ((shut s).foundError w.key w.n).sendPkt { answer x.pkt 0x04 with arg := 1 }
      else
        let got := x.got ++ bytesLE w.n (s.load w.key w.n)
        if rest.isEmpty then (shut s).sendPkt { answer x.pkt 0x04 with bytes := x.pkt.bytes, payload := got }
        else keep s { x with todo := rest, got := got }

/-- An access of a peer begins, with its first part (R281). -/
def State.startServe (s : State) (x : Serve) : State :=
  (s.modHub fun h => { h with serving := h.serving ++ [x] }).serve s.hub.serving.length

/-- A counted write reaches its receiver (R356): it is refused and counted, or begins to be performed. -/
def State.takeWrite (s : State) (p : Packet) (group : Bool) : State :=
  match s.counterFor p group with
  | none => s.logDrop
  | some (die, ix, c) =>
    if !c.takes p then s
    else match s.windowKeys p.src p.offset.toNat p.payload.length (·.wr) .write with
      | .error r => s.countWrite die ix p (some r)
      | .ok keys => s.startServe { pkt := p, ctr := some (die, ix), todo := partsOf keys, got := [], bad := false }

/-- Is this packet an access that is being performed? -/
def State.servesAt (s : State) (p : Packet) : Option Nat := s.hub.serving.findIdx? fun x => x.pkt == p

/-- The flags that the hub holds (R357). -/
def State.heldFlags (s : State) : Nat := s.dies.foldl (fun a e => e.2.counters.foldl (fun a c => a + c.2.flags.length) a) 0

/-- The BUSY that answers a flag (R357; log 18): as the gateway sent it, with DOWN 0; ARG bit 4 marks an MFLAG, whose group
stands in ARG bits 25:16. -/
def busyPkt (p : Packet) (group : Bool) : Packet :=
  { p with
    typ := 0x0E, vn := 0, dst := p.src, dstEp := p.srcEp
    arg := BitVec.ofNat 40 (p.arg.toNat % 2 ^ 16 + group.toNat * (16 + p.dst.toNat % 1024 * 2 ^ 16)) }
/-- The flag that a BUSY sends back (R357, R369; log 18). -/
def busyFlag (p : Packet) : Packet :=
  let group := p.arg.getLsbD 4
  { p with
    typ := if group then 0x08 else 0x07, vn := 0, dst := if group then BitVec.ofNat 12 (p.arg.toNat / 2 ^ 16 % 1024) else p.src, dstEp := 0
    arg := BitVec.ofNat 40 (p.arg.toNat % 2 ^ 16 - group.toNat * 16) }

/-- A release flag at its receiver (R357): its gateway checks the object's offset as R353 gives. -/
def State.takeFlag (s : State) (p : Packet) (group : Bool) : State :=
  match s.counterFor p group with
  | none => s.logDrop.report group p (.refused Reason.closed)
  | some (die, ix, c) =>
    if (Packet.frees p) then (s.dropOwed c.obj none).freeCounter die ix c none
    else if p.gen ≠ c.gen ∨ p.k.toNat < c.kn ∨ (c.flags.any fun f => f.pkt.k == p.k) then s
    else if 512 ≤ s.heldFlags then s.sendPkt (busyPkt p group)
    else
      let bad := match s.windowKeys p.src p.offset.toNat 64 (·.wr) .write with
        | .error r => some r
        | .ok _ => none
      (s.modCounter die ix fun x => { x with
        since := if p.k.toNat = c.kn then s.clk else x.since, flags := x.flags ++ [{ pkt := p, refused := bad }] }).decideFlags die ix
          (c.flags.length + 1)

/-- WRITE (R281, R356): a write that is being performed goes on, or one arrives. -/
def execPktWrite (p : Packet) (s : State) : Host.Outcome State Fault Refusal :=
  .next (match s.servesAt p with
    | some n => s.serve n
    | none => s.arrive p (s.mine p 0x01) fun t => t.takeWrite p false)

/-- FLAG (R357). -/
def execPktFlag (p : Packet) (s : State) : Host.Outcome State Fault Refusal :=
  .next (s.arrive p (s.mine p 0x07) fun t => t.takeFlag p false)

/-- A multicast packet at this device (R363, R369): before DOWN is set it is on its way to the root; from the root on it
is copied along the tree, and delivered where LOCAL is set. -/
def State.multicast (s : State) (p : Packet) (typ : BitVec 8) (pass : State → State) (f : Packet → State → State) :
    State :=
  let e := s.groupAt (p.dst.toNat % 1024)
  s.arrive p (p.typ == typ) fun t =>
    if !e.valid then t.logDrop
    else if !(Packet.down p) && !e.isRoot then t.forward p
    else
      let q := { p with arg := p.arg ||| BitVec.ofNat 40 (2 ^ 39) }
      let t1 := (t.branches e).foldl (fun t _ => t.forward q) (pass t)
      if e.local_ then f q t1 else t1

/-- MWRITE (R281, R356, R363): a write that is being performed here goes on, or one arrives. -/
def execPktMwrite (p : Packet) (s : State) : Host.Outcome State Fault Refusal :=
  .next (match s.servesAt p with
    | some n => s.serve n
    | none => s.multicast p 0x02 id fun q t => t.takeWrite q true)

/-- MFLAG (R357, R363): where it asks for a report, the decisions of the subtree are collected from its passing on
(R364). -/
def execPktMflag (p : Packet) (s : State) : Host.Outcome State Fault Refusal :=
  .next (s.multicast p 0x08 (fun t => if Packet.wantsReport p then
      let m := t.mergeOf p Outcome3.none_
      (t.modHub fun h => { h with merges := h.merges ++ [m] }).tryMerge m
    else t) fun q t => t.takeFlag q true)

/-- HOLD_TIMEOUT: the awaited flag of counter `ix` has not been decided for HOLD (R295, R358). SHORT's ARG bit 0 says that
the release has failed, and bit 1 that it is a group's (log 18). -/
def execHoldTimeout (die : Fin 4) (ix : Nat) (s : State) : Host.Outcome State Fault Refusal :=
  .next (match tabGet (s.dieAt die.val).counters ix with
    | none => s
    | some c => match c.awaited with
      | none => s
      | some f =>
        let p := f.pkt
        let short := fun (gen : BitVec 4) (failed : Bool) =>
          { answer p 0x0B with
            k := BitVec.ofNat 48 c.kn, gen := gen, arg := BitVec.ofNat 40 (failed.toNat + c.handle.isSome.toNat * 2) }
        if !s.over c.since s.holdMs then s
        else if !c.reliable || decide (3 ≤ c.tries) then
          let s1 := (s.dropOwed c.obj (some 0xFA)).report c.handle.isSome p (.timedOut Reason.shortfall)
          let s2 := if c.handle.isSome then s1 else s1.sendPkt (short c.gen true)
          s2.freeCounter die.val ix c (some p.k)
        else
          let gen := c.gen + 1
          ((s.endWrites die.val ix).modCounter die.val ix fun x => { x with
            gen := gen, tries := x.tries + 1, since := s.clk, flags := [], counts := List.replicate 16 0, marks := List.replicate 16 none }).sendPkt
            (short gen false))

/-- SHORT_RESEND: no packet of the new generation has arrived within HOLD (R358). -/
def execShortResend (die : Fin 4) (ix : Nat) (s : State) : Host.Outcome State Fault Refusal :=
  .next (match tabGet (s.dieAt die.val).counters ix with
    | none => s
    | some c =>
      if c.reliable && c.tries != 0 && c.flags.isEmpty && c.counts.all (· == 0) && s.over c.since s.holdMs then
        (s.modCounter die.val ix fun x => { x with since := s.clk }).sendPkt { Packet.zero with
          typ := 0x0B, dst := c.peer, k := BitVec.ofNat 48 c.kn, gen := c.gen, arg := BitVec.ofNat 40 (c.handle.isSome.toNat * 2)
          ctr := match c.handle with
            | some h => h.zeroExtend 14
            | none => BitVec.ofNat 14 (die.val * 4096 + ix) }
      else s)

/-! ### Reads and atomics of peers, and the answers to our own (R160, R161) -/

/-- READ (R160, R281, R353): a read that is being performed goes on, or one arrives, and is refused or begins. -/
def execPktRead (p : Packet) (s : State) : Host.Outcome State Fault Refusal :=
  .next (match s.servesAt p with
    | some n => s.serve n
    | none => s.arrive p (s.mine p 0x03) fun t => match t.windowKeys p.src p.offset.toNat p.bytes.toNat (·.rd) .read with
      | .error r => t.sendPkt (refusal p .access r)
      | .ok keys => t.startServe { pkt := p, ctr := none, todo := partsOf keys, got := [], bad := false })

/-- The operation that an ATOM carries (R160; log 18). -/
def atomOf (p : Packet) : Option AtomOp :=
  let a := p.arg.toNat
  let k : Option AtomK := match a % 16 with
    | 0 => some .add | 1 => some .and | 2 => some .or | 3 => some .xor | 4 => some .min | 5 => some .max | 6 => some .swp
    | 7 => some .cas | 8 => some .fadd | _ => none
  k.map fun k =>
    { k := k, w := if a / 2 ^ 10 % 2 = 1 then 8 else 4, signed := a / 16 % 2 == 1, rnd := BitVec.ofNat 5 (a / 32), x := BitVec.ofNat 64 (ofBytes (p.payload.take 8))
      y := BitVec.ofNat 64 (ofBytes (p.payload.drop 8)) }

/-- ATOM (R164, R353): performed at its home; the old value goes back. One to a home where no atomic is ever performed is
refused (R166). -/
def execPktAtom (p : Packet) (s : State) : Host.Outcome State Fault Refusal :=
  .next (s.arrive p (s.mine p 0x05) fun t => match atomOf p with
    | none => t.sendPkt (refusal p .access Reason.outOfWindow)
    | some op => match t.windowKeys p.src p.offset.toNat op.w (·.at_) .write with
    | .error r => t.sendPkt (refusal p .access r)
    | .ok keys =>
      let k := keys.headD 0
      if !objHome k || k % op.w != 0 then t.sendPkt (refusal p .access Reason.outOfWindow)
      else match t.dataFault k op.w false with
        | some _ => (t.foundError k op.w).sendPkt { answer p 0x06 with arg := 1 }
        | none =>
          let old := t.load k op.w
          let t1 := match (op.result old).1 with
            | some v => t.store k op.w v
            | none => t
          t1.sendPkt { answer p 0x06 with bytes := BitVec.ofNat 16 op.w, payload := bytesLE op.w old })

/-- An outstanding operation of a core, in a slot or in an image, and what becomes of it (R344). -/
def State.onAccess (s : State) (n : Nat) (mine : Access → Bool) (f : State → Fin 16 → Access → State) : State :=
  let at_ := allSlots.findSome? fun i =>
    if (s.slotAt n i).st = .empty ∨ (s.ctxAt n i).trail then none
    else ((s.ctxAt n i).accs.find? mine).map fun a => (i, a)
  match at_ with
  | some (i, a) => f s i a
  | none =>
    match ((s.coreAt n).images.zipIdx.findSome? fun e => (e.1.ctx.accs.find? mine).map fun a => (e.2, a)) with
    | some (k, a) => s.inImage n k (spareSlot a) fun t => f t (spareSlot a) a
    | none => s

/-- Is an operation the one that a response with this tag and sender answers (R348, R349)? -/
def answers (p : Packet) (a : Access) : Bool := match a.op with
  | .loadG _ _ _ (.fab q _) _ | .atomic _ _ (.fab q _) _ | .ask (.peer q _ _) => q == p.src && rtagOf a.rid 0 == p.rtag
  | .loadV _ _ els _ => els.any fun e => (match e.2 with | .fab q _ => q == p.src | _ => false) && rtagOf a.rid e.1 == p.rtag
  | _ => false

/-- Is a fabric read of an engine the one that a response answers (R161, R212)? -/
def answersAsk (p : Packet) (a : EngAsk) : Bool := a.peer == p.src && rtagOf a.rid 0 == p.rtag

/-- The 64-bit words of bytes. -/
def wordsOf (l : List Byte) : List Word := (List.range (l.length / 8)).map fun k => BitVec.ofNat 64 (ofBytes ((l.drop (8 * k)).take 8))

/-- RDATA (R160): the data of a fabric load, of a home that a pair has asked or of an engine's read; an error reply is a
late fault, or ends the engine's operation, and contains nothing. -/
def execPktRdata (p : Packet) (s : State) : Host.Outcome State Fault Refusal :=
  .next (s.arrive p (s.mine p 0x04) fun t =>
    (t.engAnswer p.dstEp.toNat (answersAsk p) p.payload (if p.arg.getLsbD 0 then 0x03 else 0)).onAccess p.dstEp.toNat (answers p)
      fun u i a =>
    let n := p.dstEp.toNat
    if p.arg.getLsbD 0 then u.failAcc n i a Cause.uncorrectable (a.fabAddr (some p.rtag))
    else match a.op with
      | .loadG d len sx _ _ => u.finishG n i a d (extend len sx (ofBytes p.payload)) 0
      | .loadV d len els addrs =>
        let got := els.filter fun e => rtagOf a.rid e.1 == p.rtag
        u.arriveV n i a d len (got.map fun e => (e.1, ofBytes p.payload)) (els.filter fun e => rtagOf a.rid e.1 != p.rtag) addrs
      | .ask _ => (u.modCtxAt n i fun c => { c.dropAcc a.id with answered := some { err := none, words := wordsOf p.payload } }).decides n i
      | _ => u)

/-- ADATA (R160, R164): the old value of a remote atomic, with the flags that the operation raises. -/
def execPktAdata (p : Packet) (s : State) : Host.Outcome State Fault Refusal :=
  .next (s.arrive p (s.mine p 0x06) fun t => t.onAccess p.dstEp.toNat (answers p) fun u i a =>
    let n := p.dstEp.toNat
    if p.arg.getLsbD 0 then u.failAcc n i a Cause.uncorrectable (a.fabAddr (some p.rtag))
    else match a.op with
      | .atomic d op _ _ => u.finishG n i a d (op.oldWord (ofBytes p.payload)) (op.result (ofBytes p.payload)).2
      | _ => u)

/-! ### The channel handshake (R223, R354) -/

/-- A new record for a sender and its handle replaces the earlier one (R370). -/
def State.forget (s : State) (peer : BitVec 12) (h : BitVec 12) : State := { s with dies := s.dies.map fun e =>
  (e.1, { e.2 with counters := e.2.counters.map fun c =>
    (c.1, if c.2.peer == peer && c.2.handle == some h then { c.2 with recorded := false } else c.2) }) }

/-- OPEN (R354): the object is checked, a counter is allocated, and OWED rises. A group member records the counter under the
sender and its handle (R370). -/
def execPktOpen (p : Packet) (s : State) : Host.Outcome State Fault Refusal :=
  let group := p.arg.getLsbD 0
  .next (s.arrive p (s.mine p 0x09) fun t => match t.windowKeys p.src p.offset.toNat 64 (·.wr) .write with
    | .error r => t.sendPkt (refusal p .open_ r)
    | .ok keys =>
      let key := keys.headD 0
      let o := t.obj key
      let die := match spaceOf key with
        | .loc c => some (dieOfCore c)
        | .dram d => some d
        | _ => none
      if key % 64 ≠ 0 ∨ !o.valid ∨ o.kind ≠ 4 then t.sendPkt (refusal p .open_ Reason.noObject)
      else match die with
        | none => t.sendPkt (refusal p .open_ Reason.noObject)
        | some d => match (t.dieAt d).freeCtr t.clk with
          | none => t.sendPkt (refusal p .open_ Reason.closed)
          | some ix =>
            let c : Counter :=
              { peer := p.src, handle := if group then some (p.rtag.truncate 12) else none, recorded := group, obj := key
                reliable := p.arg.getLsbD 1, b := 0, kn := 1, counts := List.replicate 16 0, marks := List.replicate 16 none, gen := 0
                tries := 0, since := t.clk, flags := [] }
            (((if group then t.forget p.src (p.rtag.truncate 12) else t).modDie d fun x => { x with
              counters := tabPut x.counters ix c }).changeObj key { o with owed := o.owed + 1 }).sendPkt
              { answer p 0x0A with ctr := BitVec.ofNat 14 (d * 4096 + ix), gen := 0, k := BitVec.ofNat 48 o.rank })

/-- A channel of this device, by its handle. -/
def State.chanAt (s : State) (h : Nat) : Option Chan := tabGet (s.dieAt (h / 1024 % 4)).chans (h % 1024)
/-- A channel's entry freed. -/
def State.dropChan (s : State) (h : Nat) : State := s.modDie (h / 1024 % 4) fun d => { d with chans := tabDel d.chans (h % 1024) }

/-- The operation that opens a channel. -/
def opens (h : Nat) (a : Access) : Bool := match a.op with
  | .wcopen _ k _ _ => k.toNat == h
  | _ => false

/-- A flag that frees a counter and changes no object's VALUE (R354; log 18). -/
def freePkt (core : Nat) (peer : BitVec 12) (ctr : BitVec 14) : Packet :=
  { Packet.zero with typ := 0x07, dst := peer, ctr := ctr, srcEp := epOf core, k := 1, arg := 8 }

/-- The counters of an open that ends without a channel are freed (R354, R368). -/
def State.freeOpened (s : State) (c : Chan) : State := c.opened.foldl (fun s o => s.sendPkt (freePkt c.core o.1 o.2)) s

/-- WCOPEN completes (R223): the entry is held, with the least RANK that an open of the object has returned (R368), the
handle is written, and WCH is set where SELECT asks. Where its task has ended meanwhile nobody holds the obligation, and the
counters are freed (R368). -/
def State.finishOpen (s : State) (h : Nat) (c : Chan) : State :=
  if c.gone then (s.freeOpened c).dropChan h
  else (s.modChan h fun x => { x with live := true, owes := true }).onAccess c.core (opens h) fun t i a => match a.op with
    | .wcopen d k select addr =>
      let e : Obl :=
        { ref := c.ref, addr := addr, ph := 0, rank := c.rank, ar := 0, m := 1, kind := 4 }
      let t1 := t.modCtxAt c.core i fun x => { x with
        obls := match findObl x.obls c.ref with
          | some o => putObl x.obls { o with m := o.m + 1, rank := if c.rank.toNat < o.rank.toNat then c.rank else o.rank }
          | none => putObl x.obls e
        wch := if select then BitVec.ofNat 16 (2 ^ 15 + k.toNat) else x.wch }
      t1.finishG c.core i a d (k.zeroExtend 64) 0
    | _ => t

/-- WCOPEN fails with a late fault: nothing is held (R223). -/
def State.failOpen (s : State) (h : Nat) (c : Chan) (cause : BitVec 8) : State :=
  (s.dropChan h).onAccess c.core (opens h) fun t i a => match a.op with
    | .wcopen _ _ _ addr => t.failAcc c.core i a cause addr
    | _ => t

/-- A group open ends once every member has answered or is dead (R354): it completes, or fails where a member refused,
and the counters already allocated are freed. -/
def State.endGroupOpen (s : State) (h : Nat) (c : Chan) : State :=
  if !c.opening.isEmpty then s
  else match c.declined with
    | some cause => (s.freeOpened c).failOpen h c cause
    | none => if c.opened.isEmpty then s.failOpen h c Cause.peerDead else s.finishOpen h c

/-- The late fault of a refused open (R223). -/
def openCause (reason : BitVec 8) : BitVec 8 := if reason = Reason.noObject then Cause.protection else Cause.channel

/-- OPENR (R354). One that answers a WCOPEN which has ended frees the counter again (log 13). -/
def execPktOpenr (p : Packet) (s : State) : Host.Outcome State Fault Refusal :=
  let h := p.rtag.toNat
  .next (s.arrive p (s.mine p 0x0A) fun t => match t.chanAt h with
    | none => t.sendPkt (freePkt p.dstEp.toNat p.src p.ctr)
    | some c =>
      if c.live || !c.opening.contains p.src then t.sendPkt (freePkt p.dstEp.toNat p.src p.ctr)
      else if c.group then
        let c1 := { c with
          opening := c.opening.erase p.src, opened := c.opened ++ [(p.src, p.ctr)]
          rank := if p.k.toNat < c.rank.toNat then p.k.truncate 32 else c.rank }
        (t.modChan h fun _ => c1).endGroupOpen h c1
      else
        let c1 := { c with ctr := p.ctr, gen := 0, rank := p.k.truncate 32, opening := [], opened := [(p.src, p.ctr)] }
        (t.modChan h fun _ => c1).finishOpen h c1)

/-- A channel to a peer, by the counter that serves it. -/
def State.chanTo (s : State) (peer : BitVec 12) (ctr : BitVec 14) : Option (Nat × Chan) := s.dies.findSome? fun e =>
  (e.2.chans.find? fun c => !c.2.group && c.2.live && c.2.dest == peer && c.2.ctr == ctr).map fun c => (e.1 * 1024 + c.1, c.2)

/-- A unicast channel FAILED (R222); its task's entry ends with it where `drop` says so (R225, R361), once. -/
def State.failChan (s : State) (h : Nat) (c : Chan) (drop : Bool) : State :=
  let s1 := s.modChan h fun x => { x with failed := true, owes := x.owes && !drop }
  if drop && c.owes then s1.modTask c.tid fun x => { x with obls := dropChanObl x.obls c } else s1

/-- REFUSE (R350): of a read or an atomic, a late fault PROTECTION (R160), or the status PEER of an engine operation (R213);
of an open (R223); of a release, by which the channel becomes FAILED and its entry is discharged (R225, R357). -/
def execPktRefuse (p : Packet) (s : State) : Host.Outcome State Fault Refusal :=
  let reason := BitVec.ofNat 8 p.arg.toNat
  .next (s.arrive p (s.mine p 0x0C) fun t => match p.arg.toNat / 2 ^ 8 % 4 with
    | 0 => (t.engAnswer p.dstEp.toNat (answersAsk p) [] 0x06).onAccess p.dstEp.toNat (answers p) fun u i a => u.failAcc p.dstEp.toNat i a Cause.protection (a.fabAddr (some p.rtag))
    | 1 => match t.chanAt p.rtag.toNat with
      | none => t
      | some c =>
        if c.live || !c.opening.contains p.src then t
        else if c.group then
          let c1 := { c with opening := c.opening.erase p.src, declined := c.declined.or (some (openCause reason)) }
          (t.modChan p.rtag.toNat fun _ => c1).endGroupOpen p.rtag.toNat c1
        else t.failOpen p.rtag.toNat c (openCause reason)
    | _ => match t.chanTo p.src p.ctr with
      | some (h, c) => t.failChan h c true
      | none => t)

/-! ### Shortfalls and replays (R355, R358, R359) -/

/-- Is a packet a release flag (R350)? -/
def isFlag (q : Packet) : Bool := q.typ == 0x07 || q.typ == 0x08

/-- The logged packets of a channel for release `k` and later: writes first, then flags in increasing order (R358). -/
def replayOf (l : List Replay) (id : Nat) (k : Nat) : List Packet :=
  let ps := (l.filter fun r => r.chan == id && decide (k ≤ r.pkt.k.toNat)).map (·.pkt)
  ps.filter (fun q => !isFlag q) ++ ps.filter isFlag

/-- The channel that a SHORT is about, by its number (R358, R370): the one that the counter serves, or for a group the one whose
handle CTR names; one that has closed is the latest whose copies the gateway has. -/
def State.shortChan (s : State) (p : Packet) (group : Bool) : Option Nat :=
  match (if group then (s.chanAt p.ctr.toNat).bind fun c => if c.group && c.live then some c.id else none
    else (s.chanTo p.src p.ctr).map (·.2.id)) with
  | some id => some id
  | none =>
    let mine := fun (r : Replay) => r.pkt.ctr == p.ctr &&
      (if group then r.pkt.typ == 0x02 || r.pkt.typ == 0x08 else r.pkt.dst == p.src && (r.pkt.typ == 0x01 || r.pkt.typ == 0x07))
    ((s.dies.flatMap fun e => e.2.replay.filter mine).map (·.chan)).max?

/-- SHORT (R358): an unreliable channel becomes FAILED; for a reliable one the gateway replays under the new generation what it
sent on that channel. -/
def execPktShort (p : Packet) (s : State) : Host.Outcome State Fault Refusal :=
  let group := p.arg.getLsbD 1
  .next (s.arrive p (s.mine p 0x0B) fun t =>
    if p.arg.getLsbD 0 then match (if group then none else t.chanTo p.src p.ctr) with
      | some (h, c) => t.failChan h c false
      | none => t
    else match t.shortChan p group with
      | none => t
      | some id =>
        let ps := t.dies.flatMap fun e => replayOf e.2.replay id p.k.toNat
        let regen := fun (r : Replay) => if r.chan = id ∧ p.k.toNat ≤ r.pkt.k.toNat then { r with pkt := { r.pkt with gen := p.gen } } else r
        let newGen := fun (c : Nat × Chan) => (c.1, if c.2.live ∧ c.2.id = id then { c.2 with gen := p.gen } else c.2)
        let t1 : State := { t with dies := t.dies.map fun e =>
          (e.1, { e.2 with replay := e.2.replay.map regen, chans := e.2.chans.map newGen }) }
        let t2 := t1.modHub fun h => { h with reports := h.reports.map fun r =>
          if r.chan = id ∧ (ps.any fun q => isFlag q && q.rtag == r.tag && q.k == r.k) then { r with gen := p.gen } else r }
        ps.foldl (fun t q => t.sendPkt { q with gen := p.gen }) t2)

/-- REPLAY_LOG_RETIRE: copies whose flag left 4 × HOLD + 1 ms ago or more are retired (R355). -/
def execReplayLogRetire (die : Fin 4) (s : State) : Host.Outcome State Fault Refusal :=
  .next (s.modDie die.val fun d => { d with replay := d.replay.filter fun r => match r.left with
    | some t => decide (s.clk < t + (4 * s.holdMs + 1) * 1600000)
    | none => true })

/-- BUSY: the flag waits 10 µs to be sent again (R357). -/
def execPktBusy (p : Packet) (s : State) : Host.Outcome State Fault Refusal :=
  .next (s.arrive p (s.mine p 0x0E) fun t => t.modHub fun h => { h with busy := h.busy ++ [{ busyFlag p with birth := t.birth }] })

/-- FLAG_RESEND: flag `n` of those answered BUSY is sent again after 10 µs, with its generation (R357). -/
def execFlagResend (n : Nat) (s : State) : Host.Outcome State Fault Refusal :=
  .next (match s.hub.busy[n]? with
    | some p => if s.age p < 10 then s else (s.modHub fun h => { h with busy := h.busy.eraseIdx n }).sendPkt p
    | none => s)

/-! ### Settle reports (R227, R359) -/

/-- A settle report is posted (R214, R227). -/
def State.postReport (s : State) (r : ReportWait) (o : Outcome3) : State :=
  let st := if o.refused + o.timedout = 0 then 0 else 9
  s.post r.core (BitVec.ofNat 64 ((if r.group then 5 else 4) * 2 ^ 56 + st * 2 ^ 48 + r.tag.toNat * 2 ^ 32))
    (BitVec.ofNat 64 (o.applied % 4096 * 2 ^ 52 + o.refused % 4096 * 2 ^ 40 + o.timedout % 4096 * 2 ^ 28 +
      ((o.first.map (·.toNat)).getD 0) * 2 ^ 16 + o.reason.toNat * 2 ^ 8 + r.gen.toNat)) true

/-- Report `n` of those awaited is posted. -/
def State.endReport (s : State) (n : Nat) (o : Outcome3) : State := match s.hub.reports[n]? with
  | some r => (s.modHub fun h => { h with reports := h.reports.eraseIdx n }).postReport r o
  | none => s

/-- Does a REPORT answer a report awaited (R227, R359)? It names the core, the tag, the release and the channel: by the
counter and the peer that it serves, or for a group by the handle and the root. -/
def State.answersReport (s : State) (p : Packet) (r : ReportWait) : Bool :=
  r.core == p.dstEp.toNat && r.tag == p.rtag && r.k == p.k && r.group == p.arg.getLsbD 33 &&
    (if r.group then decide (p.ctr.toNat = r.handle % 4096) && p.src == (s.groupAt (r.dest.toNat % 1024)).root
      else r.dest == p.src && r.ctr == p.ctr)

/-- REPORT (R359): it answers the report awaited; a late one is discarded. -/
def execPktReport (p : Packet) (s : State) : Host.Outcome State Fault Refusal :=
  .next (s.arrive p (s.mine p 0x0D && p.vn != 2) fun t =>
    match t.hub.reports.findIdx? (t.answersReport p) with
    | some n => t.endReport n (outcomeOf p)
    | none => t)

/-- What a report says that no one has answered, with the reason (R359, R361). -/
def State.missingReport (s : State) (r : ReportWait) (reason : BitVec 8) : Outcome3 :=
  if r.group then
    let e := s.groupAt (r.dest.toNat % 1024)
    { Outcome3.none_ with timedout := e.nmem.toNat, first := some e.root, reason := reason }
  else (Decision.timedOut reason).outcome r.dest

/-- REPORT_TIMEOUT: report `n` of those awaited has not come within 4 × HOLD + 1 ms (R227, R359). -/
def execReportTimeout (n : Nat) (s : State) : Host.Outcome State Fault Refusal :=
  .next (match s.hub.reports[n]? with
    | some r => if s.over r.since (4 * s.holdMs + 1) then s.endReport n (s.missingReport r Reason.shortfall) else s
    | none => s)

/-- GROUP_DECISION: a branch's decisions reach this device (R348, R364). -/
def execGroupDecision (p : Packet) (s : State) : Host.Outcome State Fault Refusal :=
  .next (s.arrive p (s.mine p 0x0D && p.vn == 2) fun t =>
    t.joinMerge { t.mergeOf p (outcomeOf p) with src := p.offset.truncate 12, group := p.offset.toNat / 2 ^ 12 % 1024 } (some p.src))

/-- GROUP_REPORT_TIMEOUT: 2 × HOLD + 1 ms after the flag's passing the members missing from merge `n` count as timed out
(R364). -/
def execGroupReportTimeout (n : Nat) (s : State) : Host.Outcome State Fault Refusal :=
  .next (match s.hub.merges[n]? with
    | none => s
    | some m => if s.over m.since (2 * s.holdMs + 1) then s.sendMerge { m with out := s.missingMembers m } else s)

/-! ### Reductions (R230, R365 to R372) -/

/- The statuses of a reduction (R230, R366). -/
namespace RedSt
def partial_ : Nat := 0x01
def nanSeen : Nat := 0x02
def closed : Nat := 0x04
def noslot : Nat := 0x08
def overflow : Nat := 0x10
def mismatch : Nat := 0x20
end RedSt

/-- The canonical NaN of a reduction (R230). -/
def redNan : Nat := 0x7FC00000

/-- A REDRES (log 18): K holds the result and the status, OFFSET the tag, the payload both bitmaps. -/
def resPkt (peer : BitVec 12) (ep : BitVec 11) (rtag tag : BitVec 16) (st res : Nat) (present nans : BitVec 32) : Packet :=
  { Packet.zero with
    typ := 0x10, dst := peer, dstEp := ep, rtag := rtag, offset := tag.zeroExtend 48, k := BitVec.ofNat 48 (res % 2 ^ 32 + st * 2 ^ 32)
    payload := bytesLE 4 present.toNat ++ bytesLE 4 nans.toNat, bytes := 8 }

/-- Round to nearest, no saturation, no flush (R366). -/
def redRnd : Rnd := Rnd.ofBits 0

/-- The operation of a reduction on two values (R230, R366): −0 orders below +0. -/
def redStep (op : RedOp) (a b : Nat) : Nat × Flags := match op with
  | .sum => addF Fmt.fp32 redRnd a b
  | .min => minMaxF Fmt.fp32 redRnd false a b
  | .max | .maxabs => minMaxF Fmt.fp32 redRnd true a b

/-- The result over the values in member order, with the flags raised (R230). -/
def redFold (op : RedOp) : List Nat → Nat × Flags
  | [] => (0, 0)
  | x :: xs => xs.foldl (fun a y =>
      let r := redStep op a.1 y
      (r.1, a.2 ||| r.2)) (x, 0)

/-- The result and the status of a slot at its close (R230). -/
def RedSlot.result (r : RedSlot) (nmem : Nat) : Nat × Nat :=
  let abs := fun (v : Nat) => if r.op = .maxabs then v % 2 ^ 31 else v
  let xs := ((List.range 32).filterMap fun m => tabGet r.vals m).map fun v => abs v.toNat
  let f := redFold r.op (xs.filter fun v => !isNanC Fmt.fp32 v)
  let nan := r.nans != 0
  let res := if nan && !r.ign then redNan else if isNanC Fmt.fp32 f.1 then redNan else f.1
  let st := (if (r.from_.length) < nmem then RedSt.partial_ else 0) + (if nan then RedSt.nanSeen else 0) +
    (if r.op = .sum ∧ f.2 &&& Flag.of ≠ 0 ∧ (!nan || r.ign) then RedSt.overflow else 0)
  (res, st)

/-- A slot closes (R366): the remaining OWED is discharged, and REDRES goes to every contributor. -/
def State.closeRed (s : State) (n : Nat) (r : RedSlot) : State :=
  let x := r.result (s.groupAt r.group).nmem.toNat
  let s1 := s.modHub fun h => { h with reds := tabPut h.reds n { r with closed := true, owed := 0, since := s.clk } }
  r.from_.foldl (fun s m => s.sendPkt (resPkt m.2.1 m.2.2.1 m.2.2.2 r.tag x.2 x.1 r.present r.nans)) s1

/-- A contribution (R365, R366; log 18). -/
structure Redput where
  group : Nat
  tag : BitVec 16
  timeout : Nat
  op : RedOp
  ign : Bool
  midx : Nat
  val : BitVec 32

/-- The contribution that a REDPUT carries. -/
def redputOf (p : Packet) : Redput :=
  let a := p.arg.toNat
  { group := a % 1024, tag := BitVec.ofNat 16 (a / 2 ^ 10), timeout := a / 2 ^ 26 % 64
    op := match a / 2 ^ 32 % 4 with | 0 => .sum | 1 => .max | 2 => .min | _ => .maxabs
    ign := a / 2 ^ 34 % 2 == 1, midx := p.k.toNat / 2 ^ 32 % 4096, val := BitVec.ofNat 32 p.k.toNat }

/-- A value put into a slot. -/
def RedSlot.add (r : RedSlot) (x : Redput) (p : Packet) : RedSlot :=
  let bit := BitVec.ofNat 32 (2 ^ x.midx)
  { r with
    present := r.present ||| bit, nans := if isNanC Fmt.fp32 x.val.toNat then r.nans ||| bit else r.nans
    vals := tabPut r.vals x.midx x.val, owed := r.owed - 1, from_ := r.from_ ++ [(x.midx, p.src, p.srcEp, p.rtag)] }

/-- The slot that a contribution finds (R365): one with its group and tag first, else the first free one. -/
def State.redSlotFor (s : State) (x : Redput) : Option (Nat × Option RedSlot) :=
  let base := x.group * 31 + x.tag.toNat
  let probes := (List.range 4).map fun i => (base + i) % 256
  let mine := fun (n : Nat) => match tabGet s.hub.reds n with
    | some r => if r.group = x.group ∧ r.tag = x.tag then some (n, some r) else none
    | none => none
  match probes.findSome? mine with
  | some e => some e
  | none => (probes.find? fun n => (tabGet s.hub.reds n).isNone).map fun n => (n, none)

/-- REDPUT at the group's root (R365, R366, R367, R372). -/
def execRedputPacket (p : Packet) (s : State) : Host.Outcome State Fault Refusal :=
  let x := redputOf p
  let refuse := fun (t : State) (st : Nat) => t.sendPkt (resPkt p.src p.srcEp p.rtag x.tag st redNan 0 0)
  .next (s.arrive p (s.mine p 0x0F) fun t =>
    let nmem := (t.groupAt x.group).nmem.toNat
    let put := fun (t : State) (n : Nat) (r : RedSlot) =>
      if nmem ≤ r.from_.length then t.closeRed n r else t.modHub fun h => { h with reds := tabPut h.reds n r }
    match t.redSlotFor x with
    | none => refuse t RedSt.noslot
    | some (n, some r) =>
      if r.closed then refuse t RedSt.closed
      else if r.op ≠ x.op ∨ r.ign ≠ x.ign ∨ r.timeout ≠ x.timeout ∨ r.present.getLsbD x.midx then refuse t RedSt.mismatch
      else put t n (r.add x p)
    | some (n, none) =>
      let r : RedSlot :=
        { group := x.group, tag := x.tag, op := x.op, ign := x.ign, timeout := x.timeout, present := 0, nans := 0, vals := [], owed := nmem
          closed := false, since := t.clk, from_ := [] }
      put t n (r.add x p))

/-- REDUCTION_TIMEOUT: at its timeout after the first arrival slot `n` closes over the values that are present (R230, R366). -/
def execReductionTimeout (n : Nat) (s : State) : Host.Outcome State Fault Refusal :=
  .next (match tabGet s.hub.reds n with
    | some r => if r.closed || !s.over r.since (r.timeout + 1) then s else s.closeRed n r
    | none => s)

/-- REDUCTION_SLOT_FREE: 128 ms after its close a slot is free (R367). -/
def execReductionSlotFree (n : Nat) (s : State) : Host.Outcome State Fault Refusal :=
  .next (match tabGet s.hub.reds n with
    | some r => if r.closed && s.over r.since 128 then s.modHub fun h => { h with reds := tabDel h.reds n } else s
    | none => s)

/-- Is an operation the REDPUT whose packet had this result tag? -/
def reduces (rtag : BitVec 16) (a : Access) : Bool := match a.op with
  | .reduce .. => rtagOf a.rid 0 == rtag
  | _ => false

/-- The result of a REDPUT at its contributor: the mailbox entry first, then the register, if its task still waits for it
(R371). A result for which no REDPUT of the core is pending is dropped (R348). -/
def State.endRed (s : State) (core : Nat) (rtag : BitVec 16) (st res present nans : Nat) : State :=
  match (s.coreAt core).redputs.find? fun e => e.1 == rtag with
  | none => s
  | some e =>
    let s1 := (s.modCore core fun c => { c with redputs := c.redputs.erase e }).post core
      (BitVec.ofNat 64 (6 * 2 ^ 56 + st % 256 * 2 ^ 48 + e.2.1.toNat * 2 ^ 32)) (BitVec.ofNat 64 (nans % 2 ^ 32 * 2 ^ 32 + present % 2 ^ 32)) true
    s1.onAccess core (reduces rtag) fun t i a => match a.op with
      | .reduce d _ _ => t.finishG core i a d (BitVec.ofNat 64 (st % 256 * 2 ^ 32 + res % 2 ^ 32)) 0
      | _ => t

/-- REDRES (R230, R371). -/
def execRedres (p : Packet) (s : State) : Host.Outcome State Fault Refusal :=
  .next (s.arrive p (s.mine p 0x10) fun t => t.endRed p.dstEp.toNat p.rtag (p.k.toNat / 2 ^ 32) p.k.toNat
    (ofBytes (p.payload.take 4)) (ofBytes (p.payload.drop 4)))

/-! ### Death (R360, R361) -/

/-- Every operation of every task for which `mine` holds fails with a late fault. -/
def State.failAll (s : State) (mine : Access → Bool) (cause : BitVec 8) : State :=
  s.cores.foldl (fun s e =>
    let count := (e.2.slots.toList.map fun sl => if sl.st = .empty then [] else sl.ctx.accs.filter mine).flatten.length +
      (e.2.images.map fun im => im.ctx.accs.filter mine).flatten.length
    (List.range count).foldl (fun s _ => s.onAccess e.1 mine fun t i a => t.failAcc e.1 i a cause (a.fabAddr none)) s) s

/-- Is an operation a read or an atomic that peer X has still to answer? -/
def waitsFor (x : BitVec 12) (a : Access) : Bool := match a.op with
  | .loadG _ _ _ (.fab q _) _ | .atomic _ _ (.fab q _) _ | .ask (.peer q _ _) => q == x
  | .loadV _ _ els _ => els.any fun e => match e.2 with
    | .fab q _ => q == x
    | _ => false
  | _ => false

/-- Every channel of this device with its handle. -/
def State.allChans (s : State) : List (Nat × Chan) := s.dies.flatMap fun e => e.2.chans.map fun c => (e.1 * 1024 + c.1, c.2)
/-- Every counter of this device with its die and number. -/
def State.allCounters (s : State) : List (Nat × Nat × Counter) := s.dies.flatMap fun e => e.2.counters.map fun c => (e.1, c.1, c.2)

/-- The neighbours of a peer, other than itself. -/
def Hub.neighbours (h : Hub) (p : Nat) : List Nat := (((List.range 6).map (h.neighbour p)).filter (· != p)).eraseDups

/-- Peer X is declared dead, in the order of R361. -/
def State.declareDead (s : State) (x : BitVec 12) : State :=
  if s.peerDead x then s
  else
    let part := ((tabGet s.hub.peers x.toNat).map (·.2)).getD false
    let s1 := s.modHub fun h => { h with peers := tabPut h.peers x.toNat (.dead, part), notices := h.notices ++ [.dead x.toNat] }
    let s2 := s1.cores.foldl (fun s e => s.engDead e.1 x) (s1.failAll (waitsFor x) Cause.peerDead)
    let s3 := s2.allChans.foldl (fun s e =>
      if e.2.group then
        let c := { e.2 with opened := e.2.opened.filter fun o => o.1 != x, opening := e.2.opening.filter (· != x) }
        let t := s.modChan e.1 fun _ => c
        if c.live then t else t.endGroupOpen e.1 c
      else if e.2.dest ≠ x then s
      else if e.2.live then s.failChan e.1 e.2 true
      else s.failOpen e.1 e.2 Cause.peerDead) s2
    let s4 := s3.allCounters.foldl (fun s e =>
      if e.2.2.peer = x then (s.dropCounter e.1 e.2.1).dropOwed e.2.2.obj (some 0xFC) else s) s3
    let lost := fun (r : ReportWait) => (if r.group then (s4.groupAt (r.dest.toNat % 1024)).root else r.dest) == x
    let s5 := (s4.hub.reports.filter lost).foldl (fun s r => s.postReport r (s.missingReport r Reason.peerDead))
      (s4.modHub fun h => { h with reports := h.reports.filter fun r => !lost r })
    let s6 := s5.hub.merges.foldl State.tryMerge s5
    s6.cores.foldl (fun s e => (e.2.redputs.filter fun r => (s6.groupAt r.2.2).root == x).foldl
      (fun s r => s.endRed e.1 r.1 RedSt.noslot redNan 0 0) s) s6

/-- Is SILENT about X held from every live neighbour of X (R360)? -/
def State.allSilent (s : State) (x : BitVec 12) : Bool :=
  ((s.hub.neighbours x.toNat).filter fun p => p == s.hub.peer.toNat || s.peerOk (BitVec.ofNat 12 p)).all fun p =>
    s.hub.silent.contains (x, BitVec.ofNat 12 p)

/-- Every peer about which enough SILENT is held is declared dead, `n` at most: a death leaves fewer neighbours that are
live, by which another may follow (R360). -/
def State.settleDeaths (s : State) : Nat → State
  | 0 => s
  | n + 1 => match s.hub.silent.find? fun e => !s.peerDead e.1 && s.allSilent e.1 with
    | some e => (s.declareDead e.1).settleDeaths n
    | none => s
/-- The deaths that follow from a change to the peer table or to the SILENT notices held (R360). -/
def State.recheckDeaths (s : State) : State := s.settleDeaths s.hub.silent.length

/-- SILENT about X is held from one more neighbour of X (R360). -/
def State.noteSilent (s : State) (x from_ : BitVec 12) : State :=
  if s.hub.silent.contains (x, from_) then s
  else (s.modHub fun h => { h with silent := h.silent ++ [(x, from_)] }).recheckDeaths

/-- Root firmware writes an entry of the peer table (R352). What was held about a peer that it makes live is past; where a peer
is live no more, its silence is not waited for (R360). -/
def State.writePeer (s : State) (p : Nat) (st : PeerState) (part : Bool) : State :=
  (s.modHub fun h => { h with
    peers := tabPut h.peers p (st, part)
    silent := if st = .live then h.silent.filter fun e => e.1.toNat != p else h.silent }).recheckDeaths

/-- SILENT (R360): K names the silent peer, OFFSET the neighbour that reports it (log 18). It is flooded on. -/
def execSilent (p : Packet) (s : State) : Host.Outcome State Fault Refusal :=
  let x : BitVec 12 := p.k.truncate 12
  let by_ : BitVec 12 := p.offset.truncate 12
  .next (s.arrive p (p.typ == 0x11) fun t => if t.hub.silent.contains (x, by_) then t else (t.forward p).noteSilent x by_)

/-- DEAD: a device that shuts down in order names itself (R360). It is flooded on. -/
def execPktDead (p : Packet) (s : State) : Host.Outcome State Fault Refusal :=
  .next (s.arrive p (p.typ == 0x12) fun t => ((t.forward p).declareDead p.src).recheckDeaths)

/-- The packets held in the buffers of a link that goes down are discarded (R346). Which they are is a free value: the
packets on their way have no place in the model (log 13). -/
def State.dropBuffers (s : State) : State :=
  { s with
    net := (s.net.zipIdx.filter fun e => !(Config.freeValue (s.free + e.2)).getLsbD 0).map (·.1), free := s.free + s.net.length }

/-- LINK_DOWN (R346): when every link to a neighbour is down, SILENT is flooded (R360). Links 8n to 8n + 7 join the
neighbour through port n (R347). The host is told by an MSI-X vector as well (R388). -/
def execLinkDown (link : Nat) (s : State) : Host.Outcome State Fault Refusal :=
  let s1 := s.dropBuffers.modHub fun h => { h with
    links := tabPut h.links link false, notices := h.notices ++ [.linkDown link, Notice.ofEvent 1] }
  let port := link / 8
  let x := s1.hub.neighbour s1.hub.peer.toNat port
  let down := fun (i : Nat) => (tabGet s1.hub.links i).getD false == false
  let ports := (List.range 6).filter fun i => s1.hub.neighbour s1.hub.peer.toNat i == x
  .next (if x ≠ s1.hub.peer.toNat ∧ (ports.all fun i => (List.range 8).all fun j => down (8 * i + j)) = true then
      (s1.sendPkt { Packet.zero with typ := 0x11, k := BitVec.ofNat 48 x, offset := s1.hub.peer.zeroExtend 48 }).noteSilent
        (BitVec.ofNat 12 x) s1.hub.peer
    else s1)

/-! ### Lost parts (R311, R393) -/

/-- EXPANDER_LINK_DOWN (R311). -/
def execExpanderLinkDown (port : Nat) (s : State) : Host.Outcome State Fault Refusal :=
  .next (match tabGet s.hub.expanders port with
    | some (cap, _) => s.modHub fun h => { h with expanders := tabPut h.expanders port (cap, false) }
    | none => s)

/-- A run whose engine is lost is over at once, and its obligations pass to the heir of its region (R207, R393). -/
def State.loseRun (s : State) (cluster : Nat) (h : Fin 16) : State := s.closeRun cluster h true

/-- The cores, and the clusters whose sweep engines are lost, of a part (R393). -/
def Part.lost : Part → List Nat × List Nat
  | .core n => ([n], [])
  | .cluster c => ((List.range 8).map fun k => c * 8 + k, [c])
  | .die d => ((List.range 512).map fun k => d * 512 + k, (List.range 64).map fun k => d * 64 + k)
  | .link _ | .bank _ _ _ => ([], [])

/-- Has a region a task, a herd run or an allocation of local store on a part (R393)? -/
def State.regionOn (s : State) (p : Part) (rcb : Word) : Bool :=
  (Part.lost p).1.any (fun n => (s.coreAt n).tasks.any (fun c => c.rcb == rcb) || (s.coreAt n).alloc.any fun a => a.1 == rcb) ||
    (Part.lost p).2.any fun n => (s.clusterAt n).herds.toList.any fun h => h.any fun x => x.rcb == rcb && x.run.isSome

/-- The tasks, by core, that some of these regions have on other cores than those of a part. -/
def State.tasksBeside (s : State) (p : Part) (regions : List Word) : List (Nat × BitVec 48) :=
  (s.cores.filter fun e => !(Part.lost p).1.contains e.1).flatMap fun e =>
    (e.2.tasks.filter fun c => !c.trail && regions.contains c.rcb).map fun c => (e.1, c.tid)

/-- A task of a region that has lost a part is treated as one of a contained core, step 5 of R374: what it has in flight is
discarded. -/
def State.loseTask (s : State) (e : Nat × BitVec 48) : State := match s.findTask e.2 with
  | some (n, i) =>
    if n ≠ e.1 then s
    else
      let mine := fun (j : Fin 16) => j == i || (s.isRdt (s.ctxAt n i).rcb && j == trailSlot i)
      ((s.modCore n fun c => { c with
        mxq := c.mxq.filter fun r => !mine r.slot, fills := c.fills.filter fun f => !mine f.slot }).wakeMatrix n).containSlot n i
  | none => match (s.coreAt e.1).offSlot.find? fun c => c.tid == e.2 with
    | some c => s.containOff e.1 c
    | none => s

/-- The runs of a part's sweep engines are lost, and the other runs of these regions pass to the heir at their next band
boundary (R259, R393). -/
def State.loseRuns (s : State) (p : Part) (regions : List Word) : State :=
  (s.clusters.map (·.1)).foldl (fun s c => allSlots.foldl (fun s h => match (s.clusterAt c).herds[h] with
    | some x =>
      if (Part.lost p).2.contains c then s.loseRun c h
      else if regions.contains x.rcb then s.passRun c h
      else s
    | none => s) s) s

/-- A part is out of service, and what its memory held is lost: the bytes there are free values (R393; log 32). -/
def State.losePart (s : State) (p : Part) : State :=
  { s with
    free := s.free + 1
    hub := { s.hub with lost := s.hub.lost ++ [p], losses := .part p s.free :: s.hub.losses } }

/-- PART_FAILURE (R393): every region with a task, a herd run or local store on the part is treated as containment treats the
tasks of a contained core, and the part's cores are contained. A link is lost as LINK_DOWN gives. Service firmware marks the
pages of lost memory invalid, by stores to the page tables (log 32). A queue whose interpreter's state was held by the part rebinds. -/
def execPartFailure (p : Part) (s : State) : Host.Outcome State Fault Refusal := match p with
  | .link n => execLinkDown n s
  | _ =>
    let regions := s.hub.regions.filter (s.regionOn p)
    let beside := s.tasksBeside p regions
    .next ((beside.foldl State.loseTask ((Part.lost p).1.foldl State.contain (s.loseRuns p regions))).losePart p).loseQueues

end Sys2Proof.Machine
end

