-- ==== Sys2Proof/Machine/Scalar.lean ====
section
/-! DEFINITION. Integer, address, predicate and lane-mask instructions (05, R94 to R107). -/

namespace Sys2Proof.Machine

/-- RND of the issuing thread (R19). -/
def State.rnd (s : State) : Rnd := Rnd.ofBits s.ctx.rnd

/-- A two-operand instruction on g registers: the result and the flags it sets. -/
def alu2 (s : State) (d a b : GIx) (r : Word × Flags) : Plan :=
  gated s [a, b] [] [d] [] (.act fun t => (t.raise r.2).writeG d r.1)
/-- A one-operand instruction on g registers. -/
def alu1 (s : State) (d a : GIx) (r : Word × Flags) : Plan :=
  gated s [a] [] [d] [] (.act fun t => (t.raise r.2).writeG d r.1)

/-! ### Results (R95 to R97) -/

/-- a + b (R96). -/
def addW (sat : Bool) (a b : Word) : Word × Flags := narrowSigned 64 sat (a.toInt + b.toInt)
/-- a − b (R96). -/
def subW (sat : Bool) (a b : Word) : Word × Flags := narrowSigned 64 sat (a.toInt - b.toInt)
/-- The low half of a × b (R96). -/
def mulW (sat : Bool) (a b : Word) : Word × Flags := narrowSigned 64 sat (a.toInt * b.toInt)
/-- The high half of the signed product (R95). -/
def mulhW (a b : Word) : Word := BitVec.ofInt 64 (a.toInt * b.toInt / 2 ^ 64)
/-- The high half of the unsigned product (R95). -/
def mulhuW (a b : Word) : Word := BitVec.ofNat 64 (a.toNat * b.toNat / 2 ^ 64)
/-- −2^63. -/
def minInt : Word := 0x8000000000000000
/-- Signed quotient (R97). -/
def divW (sat : Bool) (a b : Word) : Word × Flags :=
  if b = 0 then (BitVec.allOnes 64, Flag.dz) else narrowSigned 64 sat (a.toInt.tdiv b.toInt)
/-- Unsigned quotient (R97). -/
def divuW (a b : Word) : Word × Flags := if b = 0 then (BitVec.allOnes 64, Flag.dz) else (BitVec.ofNat 64 (a.toNat / b.toNat), 0)
/-- Signed remainder (R97). -/
def remW (sat : Bool) (a b : Word) : Word × Flags :=
  if b = 0 then (a, Flag.dz)
  else (BitVec.ofInt 64 (a.toInt.tmod b.toInt), flagIf (sat && a == minInt && b == BitVec.allOnes 64) (Flag.satur ||| Flag.of))
/-- Unsigned remainder (R97). -/
def remuW (a b : Word) : Word × Flags := if b = 0 then (a, Flag.dz) else (BitVec.ofNat 64 (a.toNat % b.toNat), 0)
/-- The shift count of a register form (R95). -/
def shCount (b : Word) : Nat := b.toNat % 64
/-- Leading zero bits (R104). -/
def clzW (a : Word) : Nat := if a = 0 then 64 else 63 - a.toNat.log2
/-- Trailing zero bits of the low `n` bits, counted from bit `k`. -/
def ctzFrom (a : Word) (k : Nat) : Nat → Nat
  | 0 => k
  | n + 1 => if a.getLsbD k then k else ctzFrom a (k + 1) n
/-- Trailing zero bits (R104). -/
def ctzW (a : Word) : Nat := ctzFrom a 0 64
/-- One bits of the low `n` bits. -/
def popcBits (a : Word) : Nat → Nat
  | 0 => 0
  | n + 1 => popcBits a n + (a.getLsbD n).toNat
/-- The low `w` bits, sign-extended (R104). -/
def sextLow (w : Nat) (a : Word) : Word := (BitVec.ofNat w a.toNat).signExtend 64
/-- The low `w` bits, zero-extended (R104). -/
def zextLow (w : Nat) (a : Word) : Word := BitVec.ofNat 64 (a.toNat % 2 ^ w)

/-! ### Integer ALU (R95) -/

/-- R95, R96. -/
def planAdd (d a b : GIx) (s : State) : Plan := alu2 s d a b (addW s.rnd.sat (s.gv a) (s.gv b))
/-- R95, R96. -/
def planSub (d a b : GIx) (s : State) : Plan := alu2 s d a b (subW s.rnd.sat (s.gv a) (s.gv b))
/-- R95, R96. -/
def planMul (d a b : GIx) (s : State) : Plan := alu2 s d a b (mulW s.rnd.sat (s.gv a) (s.gv b))
/-- R95. -/
def planMulh (d a b : GIx) (s : State) : Plan := alu2 s d a b (mulhW (s.gv a) (s.gv b), 0)
/-- R95. -/
def planMulhu (d a b : GIx) (s : State) : Plan := alu2 s d a b (mulhuW (s.gv a) (s.gv b), 0)
/-- R95, R97. -/
def planDiv (d a b : GIx) (s : State) : Plan := alu2 s d a b (divW s.rnd.sat (s.gv a) (s.gv b))
/-- R95, R97. -/
def planDivu (d a b : GIx) (s : State) : Plan := alu2 s d a b (divuW (s.gv a) (s.gv b))
/-- R95, R97. -/
def planRem (d a b : GIx) (s : State) : Plan := alu2 s d a b (remW s.rnd.sat (s.gv a) (s.gv b))
/-- R95, R97. -/
def planRemu (d a b : GIx) (s : State) : Plan := alu2 s d a b (remuW (s.gv a) (s.gv b))
/-- R95. -/
def planAnd (d a b : GIx) (s : State) : Plan := alu2 s d a b (s.gv a &&& s.gv b, 0)
/-- R95. -/
def planOr (d a b : GIx) (s : State) : Plan := alu2 s d a b (s.gv a ||| s.gv b, 0)
/-- R95. -/
def planXor (d a b : GIx) (s : State) : Plan := alu2 s d a b (s.gv a ^^^ s.gv b, 0)
/-- R95. -/
def planAndn (d a b : GIx) (s : State) : Plan := alu2 s d a b (s.gv a &&& ~~~s.gv b, 0)
/-- R95. -/
def planShl (d a b : GIx) (s : State) : Plan := alu2 s d a b (s.gv a <<< shCount (s.gv b), 0)
/-- R95. -/
def planShr (d a b : GIx) (s : State) : Plan := alu2 s d a b (s.gv a >>> shCount (s.gv b), 0)
/-- R95. -/
def planSra (d a b : GIx) (s : State) : Plan := alu2 s d a b ((s.gv a).sshiftRight (shCount (s.gv b)), 0)
/-- R95. -/
def planMin (d a b : GIx) (s : State) : Plan := alu2 s d a b (if (s.gv b).slt (s.gv a) then s.gv b else s.gv a, 0)
/-- R95. -/
def planMax (d a b : GIx) (s : State) : Plan := alu2 s d a b (if (s.gv a).slt (s.gv b) then s.gv b else s.gv a, 0)
/-- R95. -/
def planMinu (d a b : GIx) (s : State) : Plan := alu2 s d a b (if (s.gv b).ult (s.gv a) then s.gv b else s.gv a, 0)
/-- R95. -/
def planMaxu (d a b : GIx) (s : State) : Plan := alu2 s d a b (if (s.gv a).ult (s.gv b) then s.gv b else s.gv a, 0)
/-- R95. -/
def planMov (d a : GIx) (s : State) : Plan := alu1 s d a (s.gv a, 0)

/-! ### Immediates, shifts and constants (R98 to R102) -/

/-- R98, R96. -/
def planAddi (d a : GIx) (imm : BitVec 13) (s : State) : Plan := alu1 s d a (addW s.rnd.sat (s.gv a) (imm.signExtend 64))
/-- R98. -/
def planAndi (d a : GIx) (imm : BitVec 13) (s : State) : Plan := alu1 s d a (s.gv a &&& imm.signExtend 64, 0)
/-- R98. -/
def planOri (d a : GIx) (imm : BitVec 13) (s : State) : Plan := alu1 s d a (s.gv a ||| imm.signExtend 64, 0)
/-- R98. -/
def planXori (d a : GIx) (imm : BitVec 13) (s : State) : Plan := alu1 s d a (s.gv a ^^^ imm.signExtend 64, 0)
/-- R99. -/
def planShli (d a : GIx) (sh : BitVec 6) (s : State) : Plan := alu1 s d a (s.gv a <<< sh.toNat, 0)
/-- R99. -/
def planShri (d a : GIx) (sh : BitVec 6) (s : State) : Plan := alu1 s d a (s.gv a >>> sh.toNat, 0)
/-- R99. -/
def planSrai (d a : GIx) (sh : BitVec 6) (s : State) : Plan := alu1 s d a ((s.gv a).sshiftRight sh.toNat, 0)
/-- R100. -/
def planMovi (d : GIx) (imm : BitVec 13) (s : State) : Plan :=
  gated s [] [] [d] [] (.act fun t => t.writeG d (imm.signExtend 64))
/-- R101. -/
def planMovl (d : GIx) (lit : BitVec 32) (s : State) : Plan :=
  gated s [] [] [d] [] (.act fun t => t.writeG d (lit.signExtend 64))
/-- R101: reads its own destination. -/
def planMovh (d : GIx) (lit : BitVec 32) (s : State) : Plan :=
  gated s [d] [] [d] [] (.act fun t => t.writeG d (lit ++ (s.gv d).truncate 32))
/-- R102. -/
def planLea (d a b : GIx) (sh : BitVec 3) (imm : BitVec 6) (s : State) : Plan :=
  alu2 s d a b (s.gv a + (s.gv b <<< sh.toNat) + imm.signExtend 64, 0)

/-! ### Compare, count, bit fields and select (R103 to R106) -/

/-- An integer condition (R103). -/
def ICond.holds (c : ICond) (a b : Word) : Bool := match c with
  | .eq => a == b
  | .ne => a != b
  | .lt => a.slt b
  | .ge => !a.slt b
  | .ltu => a.ult b
  | .geu => !a.ult b

/-- R103. -/
def planCmp (c : ICond) (d : PIx) (a b : GIx) (s : State) : Plan :=
  gated s [a, b] [] [] [] (.act fun t => t.writeP d (ICond.holds c (s.gv a) (s.gv b)))
/-- R103. -/
def planCmpi (c : ICond) (d : PIx) (a : GIx) (imm : BitVec 10) (s : State) : Plan :=
  gated s [a] [] [] [] (.act fun t => t.writeP d (ICond.holds c (s.gv a) (imm.signExtend 64)))
/-- R104. -/
def planClz (d a : GIx) (s : State) : Plan := alu1 s d a (BitVec.ofNat 64 (clzW (s.gv a)), 0)
/-- R104. -/
def planCtz (d a : GIx) (s : State) : Plan := alu1 s d a (BitVec.ofNat 64 (ctzW (s.gv a)), 0)
/-- R104. -/
def planPopc (d a : GIx) (s : State) : Plan := alu1 s d a (BitVec.ofNat 64 (popcBits (s.gv a) 64), 0)
/-- R104: `w` holds the width minus 1. -/
def planSext (d a : GIx) (w : BitVec 6) (s : State) : Plan := alu1 s d a (sextLow (w.toNat + 1) (s.gv a), 0)
/-- R104: `w` holds the width minus 1. -/
def planZext (d a : GIx) (w : BitVec 6) (s : State) : Plan := alu1 s d a (zextLow (w.toNat + 1) (s.gv a), 0)
/-- R105: `n` holds the length minus 1. -/
def planBfx (sx : Bool) (d a : GIx) (q n : BitVec 6) (s : State) : Plan :=
  let f := s.gv a >>> q.toNat
  alu1 s d a (if sx then sextLow (n.toNat + 1) f else zextLow (n.toNat + 1) f, 0)
/-- R105: reads its own destination; `n` holds the length minus 1. -/
def planBfi (d a : GIx) (q n : BitVec 6) (s : State) : Plan :=
  let mask : Word := BitVec.ofNat 64 (2 ^ (n.toNat + 1) - 1) <<< q.toNat
  gated s [d, a] [] [d] [] (.act fun t => t.writeG d ((s.gv d &&& ~~~mask) ||| ((s.gv a <<< q.toNat) &&& mask)))
/-- R106: both sources are read. -/
def planSel (d a b : GIx) (p : PIx) (s : State) : Plan := alu2 s d a b (if s.ctx.pred p then s.gv a else s.gv b, 0)

/-! ### Predicates and the lane mask (R107) -/

/-- PW as software reads it (R107). -/
def Ctx.pwRead (c : Ctx) : BitVec 16 := c.pw ||| 1

/-- R107. -/
def planPand (d a b : PIx) (s : State) : Plan := .act fun t => t.writeP d (s.ctx.pred a && s.ctx.pred b)
/-- R107. -/
def planPor (d a b : PIx) (s : State) : Plan := .act fun t => t.writeP d (s.ctx.pred a || s.ctx.pred b)
/-- R107. -/
def planPxor (d a b : PIx) (s : State) : Plan := .act fun t => t.writeP d (s.ctx.pred a != s.ctx.pred b)
/-- R107. -/
def planPnot (d a : PIx) (s : State) : Plan := .act fun t => t.writeP d (!s.ctx.pred a)
/-- R107. -/
def planPget (d : GIx) (s : State) : Plan :=
  gated s [] [] [d] [] (.act fun t => t.writeG d (s.ctx.pwRead.zeroExtend 64))
/-- R107: p0 keeps reading 1. -/
def planPset (a : GIx) (s : State) : Plan :=
  gated s [a] [] [] [] (.act fun t => t.modCtx fun c => { c with pw := (s.gv a).truncate 16 ||| 1 })
/-- R107. -/
def planLmget (d : GIx) (s : State) : Plan := gated s [] [] [d] [] (.act fun t => t.writeG d s.ctx.lm)
/-- R107. -/
def planLmset (a : GIx) (s : State) : Plan :=
  gated s [a] [] [] [] (.act fun t => t.modCtx fun c => { c with lm := s.gv a })
/-- R44. -/
def planAnop (_s : State) : Plan := Plan.nop

/-! ### The meanings: each instruction alone in its pair -/

/-- Add (R19, R95, R97, R96, R104). -/
def execAdd (d a b : GIx) (s : State) : Host.Outcome State Fault Refusal :=
  .next (issueOne (planAdd d a b s) s)

/-- Sub (R95, R96). -/
def execSub (d a b : GIx) (s : State) : Host.Outcome State Fault Refusal :=
  .next (issueOne (planSub d a b s) s)

/-- Mul (R95, R96). -/
def execMul (d a b : GIx) (s : State) : Host.Outcome State Fault Refusal :=
  .next (issueOne (planMul d a b s) s)

/-- Mulh (R95). -/
def execMulh (d a b : GIx) (s : State) : Host.Outcome State Fault Refusal :=
  .next (issueOne (planMulh d a b s) s)

/-- Mulhu (R95). -/
def execMulhu (d a b : GIx) (s : State) : Host.Outcome State Fault Refusal :=
  .next (issueOne (planMulhu d a b s) s)

/-- Div (R95, R97). -/
def execDiv (d a b : GIx) (s : State) : Host.Outcome State Fault Refusal :=
  .next (issueOne (planDiv d a b s) s)

/-- Divu (R95, R97). -/
def execDivu (d a b : GIx) (s : State) : Host.Outcome State Fault Refusal :=
  .next (issueOne (planDivu d a b s) s)

/-- Rem (R95, R97). -/
def execRem (d a b : GIx) (s : State) : Host.Outcome State Fault Refusal :=
  .next (issueOne (planRem d a b s) s)

/-- Remu (R95, R97). -/
def execRemu (d a b : GIx) (s : State) : Host.Outcome State Fault Refusal :=
  .next (issueOne (planRemu d a b s) s)

/-- And (R95). -/
def execAnd (d a b : GIx) (s : State) : Host.Outcome State Fault Refusal :=
  .next (issueOne (planAnd d a b s) s)

/-- Or (R95). -/
def execOr (d a b : GIx) (s : State) : Host.Outcome State Fault Refusal :=
  .next (issueOne (planOr d a b s) s)

/-- Xor (R95). -/
def execXor (d a b : GIx) (s : State) : Host.Outcome State Fault Refusal :=
  .next (issueOne (planXor d a b s) s)

/-- Andn (R95). -/
def execAndn (d a b : GIx) (s : State) : Host.Outcome State Fault Refusal :=
  .next (issueOne (planAndn d a b s) s)

/-- Shl (R95). -/
def execShl (d a b : GIx) (s : State) : Host.Outcome State Fault Refusal :=
  .next (issueOne (planShl d a b s) s)

/-- Shr (R95). -/
def execShr (d a b : GIx) (s : State) : Host.Outcome State Fault Refusal :=
  .next (issueOne (planShr d a b s) s)

/-- Sra (R95). -/
def execSra (d a b : GIx) (s : State) : Host.Outcome State Fault Refusal :=
  .next (issueOne (planSra d a b s) s)

/-- Min (R95). -/
def execMin (d a b : GIx) (s : State) : Host.Outcome State Fault Refusal :=
  .next (issueOne (planMin d a b s) s)

/-- Max (R95). -/
def execMax (d a b : GIx) (s : State) : Host.Outcome State Fault Refusal :=
  .next (issueOne (planMax d a b s) s)

/-- Minu (R95). -/
def execMinu (d a b : GIx) (s : State) : Host.Outcome State Fault Refusal :=
  .next (issueOne (planMinu d a b s) s)

/-- Maxu (R95). -/
def execMaxu (d a b : GIx) (s : State) : Host.Outcome State Fault Refusal :=
  .next (issueOne (planMaxu d a b s) s)

/-- Mov (R95). -/
def execMov (d a : GIx) (s : State) : Host.Outcome State Fault Refusal :=
  .next (issueOne (planMov d a s) s)

/-- Addi (R98, R96). -/
def execAddi (d a : GIx) (imm : BitVec 13) (s : State) : Host.Outcome State Fault Refusal :=
  .next (issueOne (planAddi d a imm s) s)

/-- Andi (R98). -/
def execAndi (d a : GIx) (imm : BitVec 13) (s : State) : Host.Outcome State Fault Refusal :=
  .next (issueOne (planAndi d a imm s) s)

/-- Ori (R98). -/
def execOri (d a : GIx) (imm : BitVec 13) (s : State) : Host.Outcome State Fault Refusal :=
  .next (issueOne (planOri d a imm s) s)

/-- Xori (R98). -/
def execXori (d a : GIx) (imm : BitVec 13) (s : State) : Host.Outcome State Fault Refusal :=
  .next (issueOne (planXori d a imm s) s)

/-- Shli (R99). -/
def execShli (d a : GIx) (sh : BitVec 6) (s : State) : Host.Outcome State Fault Refusal :=
  .next (issueOne (planShli d a sh s) s)

/-- Shri (R99). -/
def execShri (d a : GIx) (sh : BitVec 6) (s : State) : Host.Outcome State Fault Refusal :=
  .next (issueOne (planShri d a sh s) s)

/-- Srai (R99). -/
def execSrai (d a : GIx) (sh : BitVec 6) (s : State) : Host.Outcome State Fault Refusal :=
  .next (issueOne (planSrai d a sh s) s)

/-- Movi (R100). -/
def execMovi (d : GIx) (imm : BitVec 13) (s : State) : Host.Outcome State Fault Refusal :=
  .next (issueOne (planMovi d imm s) s)

/-- Movl (R101). -/
def execMovl (d : GIx) (lit : BitVec 32) (s : State) : Host.Outcome State Fault Refusal :=
  .next (issueOne (planMovl d lit s) s)

/-- Movh (R101). -/
def execMovh (d : GIx) (lit : BitVec 32) (s : State) : Host.Outcome State Fault Refusal :=
  .next (issueOne (planMovh d lit s) s)

/-- Lea (R102). -/
def execLea (d a b : GIx) (sh : BitVec 3) (imm : BitVec 6) (s : State) : Host.Outcome State Fault Refusal :=
  .next (issueOne (planLea d a b sh imm s) s)

/-- Cmp (R103). -/
def execCmp (c : ICond) (d : PIx) (a b : GIx) (s : State) : Host.Outcome State Fault Refusal :=
  .next (issueOne (planCmp c d a b s) s)

/-- Cmpi (R103). -/
def execCmpi (c : ICond) (d : PIx) (a : GIx) (imm : BitVec 10) (s : State) : Host.Outcome State Fault Refusal :=
  .next (issueOne (planCmpi c d a imm s) s)

/-- Clz (R104). -/
def execClz (d a : GIx) (s : State) : Host.Outcome State Fault Refusal :=
  .next (issueOne (planClz d a s) s)

/-- Ctz (R104). -/
def execCtz (d a : GIx) (s : State) : Host.Outcome State Fault Refusal :=
  .next (issueOne (planCtz d a s) s)

/-- Popc (R104). -/
def execPopc (d a : GIx) (s : State) : Host.Outcome State Fault Refusal :=
  .next (issueOne (planPopc d a s) s)

/-- Sext (R104). -/
def execSext (d a : GIx) (w : BitVec 6) (s : State) : Host.Outcome State Fault Refusal :=
  .next (issueOne (planSext d a w s) s)

/-- Zext (R104). -/
def execZext (d a : GIx) (w : BitVec 6) (s : State) : Host.Outcome State Fault Refusal :=
  .next (issueOne (planZext d a w s) s)

/-- Bfx (R105). -/
def execBfx (sx : Bool) (d a : GIx) (q n : BitVec 6) (s : State) : Host.Outcome State Fault Refusal :=
  .next (issueOne (planBfx sx d a q n s) s)

/-- Bfi (R105). -/
def execBfi (d a : GIx) (q n : BitVec 6) (s : State) : Host.Outcome State Fault Refusal :=
  .next (issueOne (planBfi d a q n s) s)

/-- Sel (R106). -/
def execSel (d a b : GIx) (p : PIx) (s : State) : Host.Outcome State Fault Refusal :=
  .next (issueOne (planSel d a b p s) s)

/-- Pand (R107). -/
def execPand (d a b : PIx) (s : State) : Host.Outcome State Fault Refusal :=
  .next (issueOne (planPand d a b s) s)

/-- Por (R107). -/
def execPor (d a b : PIx) (s : State) : Host.Outcome State Fault Refusal :=
  .next (issueOne (planPor d a b s) s)

/-- Pxor (R107). -/
def execPxor (d a b : PIx) (s : State) : Host.Outcome State Fault Refusal :=
  .next (issueOne (planPxor d a b s) s)

/-- Pnot (R107). -/
def execPnot (d a : PIx) (s : State) : Host.Outcome State Fault Refusal :=
  .next (issueOne (planPnot d a s) s)

/-- Pget (R107). -/
def execPget (d : GIx) (s : State) : Host.Outcome State Fault Refusal :=
  .next (issueOne (planPget d s) s)

/-- Pset (R107). -/
def execPset (a : GIx) (s : State) : Host.Outcome State Fault Refusal :=
  .next (issueOne (planPset a s) s)

/-- Lmget (R107). -/
def execLmget (d : GIx) (s : State) : Host.Outcome State Fault Refusal :=
  .next (issueOne (planLmget d s) s)

/-- Lmset (R107). -/
def execLmset (a : GIx) (s : State) : Host.Outcome State Fault Refusal :=
  .next (issueOne (planLmset a s) s)

/-- Anop (R44). -/
def execAnop (s : State) : Host.Outcome State Fault Refusal :=
  .next (issueOne (planAnop s) s)

end Sys2Proof.Machine
end

