-- ==== Sys2Proof/Machine/FloatOps.lean ====
section
/-! DEFINITION. Scalar floating-point instructions (05, R108 to R115). -/

namespace Sys2Proof.Machine

/-- The width of a format's codes in bits. -/
def Fmt.width (f : Fmt) : Nat := f.eb + f.mb + 1
/-- The code of a format in the low bits of a word; the bits above are ignored (R108). -/
def codeIn (f : FFmt) (w : Word) : Nat := w.toNat % 2 ^ (fmtOf f).width
/-- A result code in the low bits of a word, the bits above clear (R108). -/
def codeOut (r : Nat × Flags) : Word × Flags := (BitVec.ofNat 64 r.1, r.2)

/-- R109. -/
def planFadd (f : FFmt) (d a b : GIx) (s : State) : Plan :=
  alu2 s d a b (codeOut (addF (fmtOf f) s.rnd (codeIn f (s.gv a)) (codeIn f (s.gv b))))
/-- R109. -/
def planFsub (f : FFmt) (d a b : GIx) (s : State) : Plan :=
  alu2 s d a b (codeOut (subF (fmtOf f) s.rnd (codeIn f (s.gv a)) (codeIn f (s.gv b))))
/-- R109. -/
def planFmul (f : FFmt) (d a b : GIx) (s : State) : Plan :=
  alu2 s d a b (codeOut (mulF (fmtOf f) s.rnd (codeIn f (s.gv a)) (codeIn f (s.gv b))))
/-- R110. -/
def planFmin (f : FFmt) (d a b : GIx) (s : State) : Plan :=
  alu2 s d a b (codeOut (minMaxF (fmtOf f) s.rnd false (codeIn f (s.gv a)) (codeIn f (s.gv b))))
/-- R110. -/
def planFmax (f : FFmt) (d a b : GIx) (s : State) : Plan :=
  alu2 s d a b (codeOut (minMaxF (fmtOf f) s.rnd true (codeIn f (s.gv a)) (codeIn f (s.gv b))))
/-- R109. -/
def planFdiv (f : FFmt) (d a b : GIx) (s : State) : Plan :=
  alu2 s d a b (codeOut (divF (fmtOf f) s.rnd (codeIn f (s.gv a)) (codeIn f (s.gv b))))
/-- R109. -/
def planFsqrt (f : FFmt) (d a : GIx) (s : State) : Plan :=
  alu1 s d a (codeOut (sqrtF (fmtOf f) s.rnd (codeIn f (s.gv a))))
/-- R111. -/
def planFsgn (f : FFmt) (m : SgnMode) (d a b : GIx) (s : State) : Plan :=
  alu2 s d a b (codeOut (sgnF (fmtOf f) m (codeIn f (s.gv a)) (codeIn f (s.gv b)), 0))
/-- R112. -/
def planFclass (f : FFmt) (d a : GIx) (s : State) : Plan :=
  alu1 s d a (BitVec.ofNat 64 (2 ^ classF (fmtOf f) (codeIn f (s.gv a))), 0)
/-- R113: the zero form has +0 as its addend, whatever neg says (log 36). -/
def planFfma (f : FFmt) (negP negA : Bool) (d a b : GIx) (c : Option GIx) (s : State) : Plan :=
  match c with
  | none => alu2 s d a b (codeOut (fmaF (fmtOf f) s.rnd negP false (codeIn f (s.gv a)) (codeIn f (s.gv b)) 0))
  | some c =>
    let r := codeOut (fmaF (fmtOf f) s.rnd negP negA (codeIn f (s.gv a)) (codeIn f (s.gv b)) (codeIn f (s.gv c)))
    gated s [a, b, c] [] [d] [] (.act fun t => (t.raise r.2).writeG d r.1)
/-- R114. -/
def planFcmp (f : FFmt) (c : FCond) (d : PIx) (a b : GIx) (s : State) : Plan :=
  let r := cmpF (fmtOf f) s.rnd c (codeIn f (s.gv a)) (codeIn f (s.gv b))
  gated s [a, b] [] [] [] (.act fun t => (t.raise r.2).writeP d r.1)
/-- The result of an FCVT (R115). -/
def cvtWord (f : FFmt) (c : FCvt) (r : Rnd) (a : Word) : Word × Flags := match c with
  | .toI64 => let (x, fl) := toIntF (fmtOf f) r 64 (codeIn f a); (BitVec.ofInt 64 x, fl)
  | .fromI64 => codeOut (fromIntF (fmtOf f) r a.toInt)
  | .toF32 => codeOut (convF (fmtOf f) .fp32 r (codeIn f a))
  | .fromF32 => codeOut (convF .fp32 (fmtOf f) r (codeIn .f32 a))
  | .toI32 => let (x, fl) := toIntF (fmtOf f) r 32 (codeIn f a); (BitVec.ofInt 64 x, fl)
  | .fromI32 => codeOut (fromIntF (fmtOf f) r (a.truncate 32).toInt)
/-- R115. -/
def planFcvt (f : FFmt) (c : FCvt) (d a : GIx) (s : State) : Plan := alu1 s d a (cvtWord f c s.rnd (s.gv a))

/-! ### The meanings: each instruction alone in its pair -/

/-- Fadd (R108, R109). -/
def execFadd (f : FFmt) (d a b : GIx) (s : State) : Host.Outcome State Fault Refusal :=
  .next (issueOne (planFadd f d a b s) s)

/-- Fsub (R109). -/
def execFsub (f : FFmt) (d a b : GIx) (s : State) : Host.Outcome State Fault Refusal :=
  .next (issueOne (planFsub f d a b s) s)

/-- Fmul (R109). -/
def execFmul (f : FFmt) (d a b : GIx) (s : State) : Host.Outcome State Fault Refusal :=
  .next (issueOne (planFmul f d a b s) s)

/-- Fmin (R110). -/
def execFmin (f : FFmt) (d a b : GIx) (s : State) : Host.Outcome State Fault Refusal :=
  .next (issueOne (planFmin f d a b s) s)

/-- Fmax (R110). -/
def execFmax (f : FFmt) (d a b : GIx) (s : State) : Host.Outcome State Fault Refusal :=
  .next (issueOne (planFmax f d a b s) s)

/-- Fdiv (R109). -/
def execFdiv (f : FFmt) (d a b : GIx) (s : State) : Host.Outcome State Fault Refusal :=
  .next (issueOne (planFdiv f d a b s) s)

/-- Fsqrt (R109). -/
def execFsqrt (f : FFmt) (d a : GIx) (s : State) : Host.Outcome State Fault Refusal :=
  .next (issueOne (planFsqrt f d a s) s)

/-- Fsgn (R111). -/
def execFsgn (f : FFmt) (m : SgnMode) (d a b : GIx) (s : State) : Host.Outcome State Fault Refusal :=
  .next (issueOne (planFsgn f m d a b s) s)

/-- Fclass (R112). -/
def execFclass (f : FFmt) (d a : GIx) (s : State) : Host.Outcome State Fault Refusal :=
  .next (issueOne (planFclass f d a s) s)

/-- Ffma (R113). -/
def execFfma (f : FFmt) (negP negA : Bool) (d a b : GIx) (c : Option GIx) (s : State) : Host.Outcome State Fault Refusal :=
  .next (issueOne (planFfma f negP negA d a b c s) s)

/-- Fcmp (R114). -/
def execFcmp (f : FFmt) (c : FCond) (d : PIx) (a b : GIx) (s : State) : Host.Outcome State Fault Refusal :=
  .next (issueOne (planFcmp f c d a b s) s)

/-- Fcvt (R115). -/
def execFcvt (f : FFmt) (c : FCvt) (d a : GIx) (s : State) : Host.Outcome State Fault Refusal :=
  .next (issueOne (planFcvt f c d a s) s)

end Sys2Proof.Machine
end

