-- ==== Sys2Proof/Machine/Crypto.lean ====
section
/-! DEFINITION. The hash and the signature of firmware images (24, R395): SHA-384 of FIPS 180-4, and ECDSA of FIPS 186-5 on
brainpoolP384r1 of RFC 5639. R395 names both and gives neither (PRESUMED, log 14). -/

namespace Sys2Proof.Machine

/-! ### SHA-384 -/

/-- Words are numbers below 2^64. -/
def w64 (x : Nat) : Nat := x % 2 ^ 64
/-- A word turned right. -/
def rotR (n x : Nat) : Nat := w64 ((x >>> n) ||| (x <<< (64 - n)))

/-- The round constants: the fractions of the cube roots of the first 80 primes. -/
def shaK : List Nat :=
   [0x428A2F98D728AE22, 0x7137449123EF65CD, 0xB5C0FBCFEC4D3B2F, 0xE9B5DBA58189DBBC,
    0x3956C25BF348B538, 0x59F111F1B605D019, 0x923F82A4AF194F9B, 0xAB1C5ED5DA6D8118,
    0xD807AA98A3030242, 0x12835B0145706FBE, 0x243185BE4EE4B28C, 0x550C7DC3D5FFB4E2,
    0x72BE5D74F27B896F, 0x80DEB1FE3B1696B1, 0x9BDC06A725C71235, 0xC19BF174CF692694] ++
   [0xE49B69C19EF14AD2, 0xEFBE4786384F25E3, 0x0FC19DC68B8CD5B5, 0x240CA1CC77AC9C65,
    0x2DE92C6F592B0275, 0x4A7484AA6EA6E483, 0x5CB0A9DCBD41FBD4, 0x76F988DA831153B5,
    0x983E5152EE66DFAB, 0xA831C66D2DB43210, 0xB00327C898FB213F, 0xBF597FC7BEEF0EE4,
    0xC6E00BF33DA88FC2, 0xD5A79147930AA725, 0x06CA6351E003826F, 0x142929670A0E6E70] ++
   [0x27B70A8546D22FFC, 0x2E1B21385C26C926, 0x4D2C6DFC5AC42AED, 0x53380D139D95B3DF,
    0x650A73548BAF63DE, 0x766A0ABB3C77B2A8, 0x81C2C92E47EDAEE6, 0x92722C851482353B,
    0xA2BFE8A14CF10364, 0xA81A664BBC423001, 0xC24B8B70D0F89791, 0xC76C51A30654BE30,
    0xD192E819D6EF5218, 0xD69906245565A910, 0xF40E35855771202A, 0x106AA07032BBD1B8] ++
   [0x19A4C116B8D2D0C8, 0x1E376C085141AB53, 0x2748774CDF8EEB99, 0x34B0BCB5E19B48A8,
    0x391C0CB3C5C95A63, 0x4ED8AA4AE3418ACB, 0x5B9CCA4F7763E373, 0x682E6FF3D6B2B8A3,
    0x748F82EE5DEFB2FC, 0x78A5636F43172F60, 0x84C87814A1F0AB72, 0x8CC702081A6439EC,
    0x90BEFFFA23631E28, 0xA4506CEBDE82BDE9, 0xBEF9A3F7B2C67915, 0xC67178F2E372532B] ++
   [0xCA273ECEEA26619C, 0xD186B8C721C0C207, 0xEADA7DD6CDE0EB1E, 0xF57D4F7FEE6ED178,
    0x06F067AA72176FBA, 0x0A637DC5A2C898A6, 0x113F9804BEF90DAE, 0x1B710B35131C471B,
    0x28DB77F523047D84, 0x32CAAB7B40C72493, 0x3C9EBE0A15C9BEBC, 0x431D67C49C100D4C,
    0x4CC5D4BECB3E42B6, 0x597F299CFC657E2A, 0x5FCB6FAB3AD6FAEC, 0x6C44198C4A475817]

/-- The initial hash: the fractions of the square roots of the ninth to the sixteenth prime. -/
def shaInit : List Nat := [0xCBBB9D5DC1059ED8, 0x629A292A367CD507, 0x9159015A3070DD17, 0x152FECD8F70E5939, 0x67332667FFC00B31, 0x8EB44A8768581511, 0xDB0C2E0D64F98FA7, 0x47B5481DBEFA4FA4]

/-- One more word of the message schedule, which holds the latest first. -/
def shaWord (l : List Nat) : List Nat :=
  let x := l.getD 1 0
  let y := l.getD 14 0
  w64 ((rotR 19 x ^^^ rotR 61 x ^^^ x >>> 6) + l.getD 6 0 + (rotR 1 y ^^^ rotR 8 y ^^^ y >>> 7) + l.getD 15 0) :: l
/-- The schedule of a block of 16 words, in order. -/
def shaSchedule (block : List Nat) : List Nat := ((List.range 64).foldl (fun l _ => shaWord l) block.reverse).reverse

/-- The rounds over the constants and the schedule. -/
def shaRounds : List (Nat × Nat) → (a b c d e f g h : Nat) → List Nat
  | [], a, b, c, d, e, f, g, h => [a, b, c, d, e, f, g, h]
  | (k, w) :: l, a, b, c, d, e, f, g, h =>
    let t := h + (rotR 14 e ^^^ rotR 18 e ^^^ rotR 41 e) + ((e &&& f) ^^^ ((2 ^ 64 - 1 - e) &&& g)) + k + w
    shaRounds l (w64 (t + (rotR 28 a ^^^ rotR 34 a ^^^ rotR 39 a) + ((a &&& b) ^^^ (a &&& c) ^^^ (b &&& c)))) a b c (w64 (d + t)) e f g

/-- A number from bytes, most significant first. -/
def ofBE (l : List Byte) : Nat := l.foldl (fun a b => a * 256 + b.toNat) 0
/-- The `n` bytes of a number, most significant first. -/
def bytesBE (n v : Nat) : List Byte := (List.range n).map fun k => BitVec.ofNat 8 (v / 256 ^ (n - 1 - k))

/-- A block of 128 bytes taken into the hash. -/
def shaBlock (hash : List Nat) (b : List Byte) : List Nat :=
  let ws := (List.range 16).map fun k => ofBE ((b.drop (8 * k)).take 8)
  let h := fun (k : Nat) => hash.getD k 0
  (hash.zip (shaRounds (shaK.zip (shaSchedule ws)) (h 0) (h 1) (h 2) (h 3) (h 4) (h 5) (h 6) (h 7))).map fun e => w64 (e.1 + e.2)

/-- A message with its padding: a one bit, zeros, and its length in bits. -/
def shaPad (m : List Byte) : List Byte :=
  m ++ [0x80] ++ List.replicate ((239 - m.length % 128) % 128) 0 ++ bytesBE 16 (8 * m.length)

/-- SHA-384 of bytes. -/
def sha384 (m : List Byte) : List Byte :=
  let p := shaPad m
  let hash := (List.range (p.length / 128)).foldl (fun h k => shaBlock h ((p.drop (128 * k)).take 128)) shaInit
  (hash.take 6).flatMap (bytesBE 8)

/-! ### ECDSA on brainpoolP384r1 -/

/- The field, the curve y^2 = x^3 + a x + b, and the base point with its order. -/
namespace Curve
def p : Nat := 0x8CB91E82A3386D280F5D6F7E50E641DF152F7109ED5456B412B1DA197FB71123ACD3A729901D1A71874700133107EC53
def a : Nat := 0x7BC382C63D8C150C3C72080ACE05AFA0C2BEA28E4FB22787139165EFBA91F90F8AA5814A503AD4EB04A8C7DD22CE2826
def b : Nat := 0x04A8C7DD22CE28268B39B55416F0447C2FB77DE107DCD2A62E880EA53EEB62D57CB4390295DBC9943AB78696FA504C11
def gx : Nat := 0x1D1C64F068CF45FFA2A63A81B7C13F6B8847A3E77EF14FE3DB7FCAFE0CBD10E8E826E03436D646AAEF87B2E247D4AF1E
def gy : Nat := 0x8ABE1D7520F9C2A45CB1EB8E95CFD55262B70B29FEEC5864E19C054FF99129280E4646217791811142820341263C5315
def n : Nat := 0x8CB91E82A3386D280F5D6F7E50E641DF152F7109ED5456B31F166E6CAC0425A7CF3AB6AF6B7FC3103B883202E9046565
end Curve

/-- A difference modulo `m`. -/
def subMod (m x y : Nat) : Nat := (x + (m - y % m)) % m
/-- A power modulo `m`, the exponent by its lowest `i` bits. -/
def powMod (m x e : Nat) : Nat → Nat
  | 0 => 1 % m
  | i + 1 => let r := powMod m (x * x % m) (e / 2) i; if e % 2 = 1 then r * x % m else r
/-- The inverse modulo a prime of 384 bits. -/
def invMod (m x : Nat) : Nat := powMod m x (m - 2) 384

/-- A point in Jacobian coordinates; that at infinity has z = 0. -/
structure Point where
  x : Nat
  y : Nat
  z : Nat

/-- Twice a point. -/
def Point.dbl (u : Point) : Point :=
  let p := Curve.p
  let yy := u.y * u.y % p
  let s := 4 * u.x * yy % p
  let zz := u.z * u.z % p
  let m := (3 * u.x * u.x + Curve.a * (zz * zz % p)) % p
  let x := subMod p (m * m) (2 * s)
  { x := x, y := subMod p (m * subMod p s x) (8 * yy * yy), z := 2 * u.y * u.z % p }

/-- The sum of two points. -/
def Point.add (u v : Point) : Point :=
  let p := Curve.p
  if u.z = 0 then v else if v.z = 0 then u
  else
    let zu := u.z * u.z % p
    let zv := v.z * v.z % p
    let xu := u.x * zv % p
    let xv := v.x * zu % p
    let yu := u.y * (v.z * zv % p) % p
    let yv := v.y * (u.z * zu % p) % p
    if xu = xv then (if yu = yv then u.dbl else { x := 1, y := 1, z := 0 })
    else
      let h := subMod p xv xu
      let r := subMod p yv yu
      let hh := h * h % p
      let hhh := h * hh % p
      let w := xu * hh % p
      let x := subMod p (r * r) (hhh + 2 * w)
      { x := x, y := subMod p (r * subMod p w x) (yu * hhh), z := h * (u.z * v.z % p) % p }

/-- i G + j Q by the bits of i and j, from bit `k` - 1 down. -/
def Point.comb (g q gq : Point) (i j : Nat) : Nat → Point → Point
  | 0, acc => acc
  | k + 1, acc =>
    let d := acc.dbl
    Point.comb g q gq i j k (match i.testBit k, j.testBit k with
      | false, false => d
      | true, false => d.add g
      | false, true => d.add q
      | true, true => d.add gq)

/-- Does a signature (r, s) on a message stand under a public key, the coordinates of its point? -/
def ecdsaOk (key : Nat × Nat) (m : List Byte) (r s : Nat) : Bool :=
  let n := Curve.n
  if r = 0 ∨ n ≤ r ∨ s = 0 ∨ n ≤ s then false
  else
    let w := invMod n s
    let i := ofBE (sha384 m) * w % n
    let j := r * w % n
    let g : Point := { x := Curve.gx, y := Curve.gy, z := 1 }
    let q : Point := { x := key.1, y := key.2, z := 1 }
    let u := Point.comb g q (g.add q) i j 384 { x := 1, y := 1, z := 0 }
    let c := invMod Curve.p u.z
    u.z != 0 && u.x * (c * c % Curve.p) % Curve.p % n == r

end Sys2Proof.Machine
end

