-- ==== Sys2Proof/Machine/Reset.lean ====
section
/-! DEFINITION. The platform: register writes of firmware and of the host, the four resets, images, attestation and
bring-up (24, R387 to R399; 19, R324, R325). -/

namespace Sys2Proof.Machine

/-! ### Registers and tables without a row of their own (R7) -/

/-- The RCB and the completion barrier of queue `q`'s region, as service firmware writes them (R325). -/
def State.writeQueueRegion (s : State) (q : Nat) (rcb ptroot : Word)
    (first ncores slotcap owner prio dramq pwr fdom : Nat) : State :=
  let lo := q * 0x400000
  let hi := lo + 0x3FFFFE
  let s1 := s.storeWords rcb.toNat
    ([0, s.seq % 2 ^ 24 + prio % 16 * 2 ^ 24 + slotcap % 32 * 2 ^ 40, 0, 0, ptroot.toNat, 0, 0, 0, lo + hi * 2 ^ 32,
      lo * 2 ^ 32, hi, first % 2 ^ 11 + ncores % 2 ^ 12 * 2 ^ 16, 0, dramq, pwr % 256 + fdom % 256 * 2 ^ 8 + owner % 2 ^ 32 * 2 ^ 16,
      q] ++ List.replicate 16 0)
  let s2 := s1.putObj (barrierOf rcb) { freshObj 2 hi 0 with owed := 0 }
  (s2.modHub fun h => { h with regions := if h.regions.contains rcb then h.regions else h.regions ++ [rcb] }).bump

/-- A queue's table entry is written (R324). A deregistered queue's interpreter lets its obligations go to the heir with
reason 5, its wait is withdrawn (R207), and its state area keeps the entries that have no record. A queue that is registered with the rings of its
state area goes on from there as after a warm reset: each of those entries gets LOST (R392, R398; log 33). Another one starts with its
notify registers at reset. -/
def State.registerQueue (s : State) (q : Nat) (e : QueueReg) : State :=
  let x := s.queueAt q
  let area := (e.ring, e.cpl)
  if e.valid then
    s.modQueue q fun y =>
      if x.reg.valid then { y with reg := e, area := area }
      else if y.area = area then { y.warm s.time with reg := e, tail := y.head, error := false }
      else { Queue.init with reg := e, area := area }
  else
    ((s.withdrawWho (.queue q)).modQueue q fun y => { y.halted with reg := e }).passFromNoCore x.reg.qrcb 5 x.obls

/-- The bytes of an attestation report (R396). -/
def reportBytes (h : Hub) (nonce : BitVec 384) (time : Word) (signature : List Byte) : List Byte :=
  bytesLE 48 nonce.toNat ++ bytesLE 48 h.rootDigest.toNat ++ bytesLE 48 h.serviceDigest.toNat ++ bytesLE 2 h.rootSvn.toNat ++
    bytesLE 2 h.serviceSvn.toNat ++ bytesLE 2 h.peer.toNat ++ bytesLE 2 h.partition.toNat ++ bytesLE 8 time.toNat ++ signature

/-- The attestation report over a nonce (R396; log 14). -/
def State.attest (s : State) (nonce : BitVec 384) : State :=
  let h := s.hub
  let n := s.free
  { s with
    free := n + 1
    hub := { h with notices := h.notices ++ [.report (reportBytes h nonce s.time ((List.range 96).map (Config.signature n)))] } }

/-- What has been held is done, in the order in which it came (R391, R396). -/
def State.applyHeld (s : State) : State :=
  s.hub.held.foldl (fun s x => match x with
    | .tail q v => s.notifyWrite q 0x000 v
    | .error q => s.notifyWrite q 0x010 2
    | .attest nonce => s.attest nonce) (s.modHub fun h => { h with held := [] })

/-- A write to a register or a table (R7). -/
def State.writeReg (s : State) (w : RegWrite) : State := match w with
  | .queue q e => s.registerQueue q e
  | .queueRegion q rcb ptroot first ncores slotcap owner prio dramq pwr fdom =>
    s.writeQueueRegion q rcb ptroot first ncores slotcap owner prio dramq pwr fdom
  | .peer p st part => s.writePeer p st part
  | .window n e => s.modHub fun h => { h with windows := tabPut h.windows n e }
  | .group n e members => s.modHub fun h => { h with groups := tabPut h.groups n e, members := tabPut h.members n members }
  | .hold ms => s.modHub fun h => { h with hold := ms.toNat }
  | .torus dx dy dz => s.modHub fun h => { h with dx := dx.toNat, dy := dy.toNat, dz := dz.toNat }
  | .peerNumber p part => s.modHub fun h => { h with peer := p, partition := part }
  | .namespace_ n e => s.modHub fun h => { h with namespaces := tabPut h.namespaces n e }
  | .notifyError q =>
    if !s.hub.ready || s.hub.warm then s.modHub fun h => { h with held := h.held ++ [.error q] } else s.notifyWrite q 0x010 2
  | .page a v => s.store a.toNat 8 v.toNat
  | .supv rcb => s.store (rcb.toNat + 8) 8 (s.load (rcb.toNat + 8) 8 ||| 2 ^ 36)
  | .sampleRing die base => s.modDie die fun d => { d with ring := { d.ring with base := base } }
  | .expander port cap => s.modHub fun h => { h with expanders := tabPut h.expanders port (min cap (2 ^ 42), true) }
  | .ready => if s.hub.bootfail || s.hub.warm then s else (s.modHub fun h => { h with ready := true }).applyHeld

/-- Does root firmware alone write it (R394, R399)? Service firmware or the host writes the others. -/
def RegWrite.byRoot : RegWrite → Bool
  | .queue .. | .queueRegion .. | .namespace_ .. | .notifyError .. | .ready => false
  | .peer .. | .window .. | .group .. | .hold .. | .torus .. | .peerNumber .. | .supv .. | .page .. | .sampleRing .. | .expander .. => true

/-- REGISTER_WRITE (R7). -/
def execRegisterWrite (w : RegWrite) (s : State) : Host.Outcome State Fault Refusal := .next (s.writeReg w)

/-! ### Images (R395) -/

/-- Bytes of an image. -/
def FwImage.part (im : FwImage) (off n : Nat) : List Byte := (im.bytes.drop off).take n
/-- A field of an image's header, by its offset and its bytes (R395). -/
def FwImage.field (im : FwImage) (off n : Nat) : Nat := ofBytes (FwImage.part im off n)

/-- MAGIC, KIND, SVN and DIGEST of an image (R395). -/
def FwImage.magic (im : FwImage) : BitVec 32 := BitVec.ofNat 32 (FwImage.field im 0x000 4)
def FwImage.kind (im : FwImage) : BitVec 16 := BitVec.ofNat 16 (FwImage.field im 0x004 2)
def FwImage.svn (im : FwImage) : BitVec 16 := BitVec.ofNat 16 (FwImage.field im 0x006 2)
def FwImage.digest (im : FwImage) : BitVec 384 := BitVec.ofNat 384 (FwImage.field im 0x010 48)

/-- The body of an image: LENGTH bytes after the header (R395). -/
def FwImage.body (im : FwImage) : List Byte := FwImage.part im 256 (FwImage.field im 0x008 8)

/-- The signature of an image stands under a key (R395): over bytes 0x000 to 0x07F and the body. -/
def FwImage.signedBy (im : FwImage) (key : List Byte) : Bool :=
  ecdsaOk (ofBE (key.take 48), ofBE (key.drop 48)) (FwImage.part im 0 128 ++ FwImage.body im) (ofBE (FwImage.part im 0x080 48))
    (ofBE (FwImage.part im 0x0B0 48))

/-- Does an image pass verification as one of a kind (R395)? The boot ROM verifies root firmware against a key whose hash is fused,
root firmware service firmware against its own key. -/
def FwImage.verified (im : FwImage) (f : Fuses) (kind : BitVec 16) : Bool :=
  let root := kind == 1
  FwImage.magic im == 0x4B4C4649 && FwImage.kind im == kind && decide ((if root then f.rootSvn else f.serviceSvn) ≤ FwImage.svn im) &&
    decide ((FwImage.body im).length = FwImage.field im 0x008 8) && FwImage.part im 0x010 48 == sha384 (FwImage.body im) &&
    (!root || sha384 im.key == f.rootHash) && FwImage.signedBy im (if root then im.key else f.serviceKey)

/-- An image that passed verification runs from now on. -/
def State.startImage (s : State) (im : FwImage) : State := s.modHub fun h =>
  if FwImage.kind im = 1 then { h with rootRuns := true, rootDigest := FwImage.digest im, rootSvn := FwImage.svn im }
  else { h with serviceDigest := FwImage.digest im, serviceSvn := FwImage.svn im }

/-- IMAGE_UPLOAD, which root firmware takes (R388): a rejected image leaves the device in its state (R395). -/
def execImageUpload (im : FwImage) (s : State) : Host.Outcome State Fault Refusal :=
  .next (if s.hub.rootRuns && (FwImage.verified im s.hub.fuses 1 || FwImage.verified im s.hub.fuses 2) then s.startImage im else s)

/-- ATTESTATION_REQUEST: root firmware answers it, where it runs; one that comes during a warm reset is answered after it
(R396). -/
def execAttestationRequest (nonce : BitVec 384) (s : State) : Host.Outcome State Fault Refusal :=
  .next (if !s.hub.rootRuns then s
    else if s.hub.warm then s.modHub fun h => { h with held := h.held ++ [.attest nonce] } else s.attest nonce)

/-! ### Cold reset and bring-up (R391, R399) -/

/-- Everything is reset but the memory of the host, which is not the device's, with the state areas of the queues that it holds
(R327, R398); the model's own counters run on. -/
def State.coldCleared (s : State) : State :=
  { State.reset with
    mem := s.mem.filter fun c => spaceOf c.1 == .host
    hub := { Hub.init with fuses := s.hub.fuses, queues := s.hub.queues.map fun e => (e.1, { e.2.halted with reg := Queue.init.reg }) }
    agenda := s.agenda, focus := s.focus, seq := s.seq, free := s.free, ticks := s.ticks }

/-- The device keeps its cores in reset and reports the failure in DEVSTAT.BOOTFAIL (R388, R395). -/
def State.failBoot (s : State) : State := s.modHub fun h => { h with bootfail := true, notices := h.notices ++ [.bootfail] }

/-- Service firmware starts on a die: on core 0 of cluster 0, in a region with SUPV that has no other core (R394, R399; log 76). -/
def State.startService (s : State) (die : Nat) (f : FwStart) : State :=
  let core := die * 512
  let s1 := s.storeWords f.rcb.toNat
    ([0, s.seq % 2 ^ 24 + 11 * 2 ^ 24 + 2 ^ 36 + 16 * 2 ^ 40, f.codeBase.toNat, f.codeEnd.toNat, f.ptroot.toNat, 0, 0, 0, 0, 0, 0,
      core + 2 ^ 16, 0, 0, 0, 0] ++ List.replicate 16 0)
  let s2 := s1.putObj (barrierOf f.rcb) { freshObj 2 0 1 with owed := 1 }
  let s3 := (s2.modHub fun h => { h with regions := h.regions ++ [f.rcb] }).bump
  s3.placeTask core (s3.newTask core f.rcb (BitVec.ofNat 48 s.seq) f.entry [] .launched [s3.seatObl f.rcb])

/-- The links that train carry traffic (R346, R399). -/
def State.trainLinks (s : State) (l : List Nat) : State := s.modHub fun h => { h with
  links := (l.filter (· < 48)).foldl (fun t k => tabPut t k true) h.links }

/-- The steps of R399, in order. -/
def State.bringUp (s : State) (b : BringUp) : State :=
  if !FwImage.verified b.root s.hub.fuses 1 then s.failBoot
  else
    let s1 := (b.tables.filter RegWrite.byRoot).foldl State.writeReg ((s.startImage b.root).trainLinks b.links)
    if !FwImage.verified b.service s.hub.fuses 2 then s1.failBoot
    else
      let s2 := ((b.starts.take 4).zipIdx).foldl (fun s e => s.startService e.2 e.1) (s1.startImage b.service)
      let s3 := b.failed.foldl (fun s c => s.modCluster c fun x => { x with nomx := true }) s2
      ((b.queues.filter fun w => !RegWrite.byRoot w).foldl State.writeReg s3).writeReg .ready

/-- COLD_RESET (R391, R399). -/
def execColdReset (b : BringUp) (s : State) : Host.Outcome State Fault Refusal := .next (s.coldCleared.bringUp b)

/-- OVERHEAT: the die's cores stop, the device floods DEAD and resets cold (R398). DEAD's age counts from the reset, as
the clk does. -/
def execOverheat (die : Fin 4) (b : BringUp) (s : State) : Host.Outcome State Fault Refusal :=
  let dead : Packet := { Packet.zero with typ := 0x12, vn := 3, src := s.hub.peer, birth := 0 }
  let t := s.coldCleared
  .next ({ t with net := [dead], hub := { t.hub with notices := [.thermal die.val, Notice.ofEvent 2] } }.bringUp b)

/-! ### Warm reset (R391, R392) -/

/-- The bytes of a registered queue's region: its RCB (R325). -/
def State.inQueueRegion (s : State) (key : Nat) : Bool := s.hub.queues.any fun e =>
  e.2.reg.valid && decide (e.2.reg.qrcb.toNat ≤ key) && decide (key < e.2.reg.qrcb.toNat + 256)

/-- Does a byte keep its value over a warm reset (R391; log 33)? Host memory, expander memory and the HDM range do, and
what belongs to a queue's registration. -/
def State.keepsByte (s : State) (key : Nat) : Bool :=
  (match spaceOf key with | .host | .second _ => true | _ => false) || s.inQueueRegion key ||
    inHdm key || Config.survives key

/-- WARM_RESET (R391, R392). Only a cluster's own reset decides on its NOMX mark (R382). -/
def execWarmReset (s : State) : Host.Outcome State Fault Refusal :=
  let h := s.hub
  let regions := (h.queues.filter fun e => e.2.reg.valid).map fun e => e.2.reg.qrcb
  let t : State :=
    { s with
      mem := s.mem.filter fun c => s.keepsByte c.1
      poison := s.poison.filter s.keepsByte
      cores := [], clusters := s.clusters.map fun e => (e.1, { Cluster.init with nomx := e.2.nomx })
      dies := s.dies.map fun e => (e.1, { Die.init with ring := { base := e.2.ring.base, seq := 0, off := 0, full := true } })
      act := Act.init, popped := [], pair := 0
      hub := { h with
        queues := h.queues.map fun e => (e.1, e.2.warm s.time)
        sessions := [], windows := [], groups := [], members := [], silent := [], reds := [], merges := [], reports := [], busy := [], serving := []
        sampctl := 0, waiters := [], orphans := [], regions := regions.eraseDups, starts := [], ready := false, warm := true, warmClk := s.clk
        lost := h.lost.filter fun p => match p with | .core _ | .cluster _ => false | _ => true
        losses := h.losses.filter fun l => match l with | .part (.core _) _ | .part (.cluster _) _ => false | _ => true } }
  .next (regions.eraseDups.foldl (fun u r => u.putObj (barrierOf r) { u.obj (barrierOf r) with
    count := 0, owed := 0, arrived := 0, wcnt := 0, poisoned := false, pcode := 0 }) t)

/-- WARM_RESET_COMPLETE: DEVSTAT.WARM clears, and what was held is done in the order in which it came (R391, R396). -/
def execWarmResetComplete (s : State) : Host.Outcome State Fault Refusal :=
  .next (if s.hub.warm then (s.modHub fun h => { h with warm := false }).applyHeld else s)

/-! ### Core and cluster reset (R382, R391) -/

/-- The tasks of a core that is reset are dealt with as R374 deals with those of a contained core (log 34). -/
def State.disposeTasks (s : State) (n : Nat) : State :=
  let s1 := ((s.modCore n fun c => { c with contained := true, mxq := [], engs := [] }).refuseFills n)
  let s2 := allSlots.foldl (fun s i => s.containSlot n i) s1
  (s2.coreAt n).offSlot.foldl (fun s c => s.containOff n c) s2

/-- A core right after its reset: its freeze bits are copies of the dies' (R308), messages wait on in the network, and a
region keeps its local store there until it completes (R305). No settle report is posted to it any more. -/
def State.clearCore (s : State) (n : Nat) (contained : Bool) : State :=
  ((s.modHub fun h => { h with reports := h.reports.filter fun r => r.core != n }).modCore n fun c => { Core.init with
    msgs := c.msgs, frz := c.frz, alloc := c.alloc, resetClk := s.clk, pcnt4At := (s.clusterAt (clusterOfCore n)).pcnt4
    contained := contained, sealed := contained }).zeroRange (localBase n) localStoreBytes

/-- A core's reset (R391): a contained core stays out of service until its cluster is reset (R374). -/
def State.resetCore (s : State) (n : Nat) (contained : Bool) : State := (s.disposeTasks n).clearCore n contained

/-- CORE_RESET (R391). -/
def execCoreReset (core : Nat) (s : State) : Host.Outcome State Fault Refusal :=
  .next (s.resetCore core (s.coreAt core).contained)

/-- Is a part one of a cluster's, which its reset brings back (R391)? -/
def Part.inCluster (p : Part) (cluster : Nat) : Bool := match p with
  | .core n => clusterOfCore n == cluster
  | .cluster n => n == cluster
  | _ => false

/-- CLUSTER_RESET: the cluster's cores, matrix unit, sweep engine, TLB and copy unit, and NOMX by the self-test (R382,
R391). -/
def execClusterReset (cluster : Nat) (selfTestPassed : Bool) (s : State) : Host.Outcome State Fault Refusal :=
  let s1 := allSlots.foldl (fun s h => s.loseRun cluster h) s
  let s2 := (s1.modCluster cluster fun c => { Cluster.init with padOwner := c.padOwner, nomx := !selfTestPassed }).modHub fun h =>
    { h with lost := h.lost.filter fun p => !Part.inCluster p cluster }
  .next ((List.range 8).foldl (fun s k => s.resetCore (cluster * 8 + k) false) s2)

end Sys2Proof.Machine
end

