-- ==== Sys2Proof/Machine/Vector.lean ====
section
/-! DEFINITION. Vector instructions (06, R122 to R135). A lane is held as the natural number of its bits. -/

namespace Sys2Proof

/-- Bits of an element (R122). -/
def ESize.bits : ESize → Nat
  | .w => 32
  | .h => 16
  | .b => 8
/-- Bits of a lane kind (R122). -/
def Lane.bits : Lane → Nat
  | .w | .f => 32
  | .h => 16
  | .b => 8

end Sys2Proof

namespace Sys2Proof.Machine

/-- Lane `k` of `n` bits (R122). -/
def lane (n : Nat) (v : VWord) (k : Nat) : Nat := v.toNat / 2 ^ (n * k) % 2 ^ n
/-- A register from its lanes of `n` bits, lane 0 first; lanes that are not given are zero. -/
def ofLanes (n : Nat) (l : List Nat) : VWord := BitVec.ofNat 512 (l.foldr (fun x a => x % 2 ^ n + 2 ^ n * a) 0)
/-- The signed value of a lane. -/
def slane (n : Nat) (x : Nat) : Int := (BitVec.ofNat n x).toInt
/-- An exact lane result, wrapped or clamped (R82, R124). -/
def laneInt (n : Nat) (sat : Bool) (x : Int) : Nat × Flags := let r := narrowSigned n sat x; (r.1.toNat, r.2)
/-- The union of flags. -/
def unionF (l : List Flags) : Flags := l.foldl (· ||| ·) 0

/-- Lane by lane, merged under LM when `m` holds (R123). -/
def mapLanes (n : Nat) (m : Bool) (lm : Word) (old : VWord) (f : Nat → Nat × Flags) : VWord × Flags :=
  let rs := (List.range (512 / n)).map fun k => if !m || lm.getLsbD k then f k else (lane n old k, 0)
  (ofLanes n (rs.map (·.1)), unionF (rs.map (·.2)))

/-- A vector instruction with v sources `vs`; a merge also reads vd, without DEADRD (R123). -/
def vecPlan (s : State) (m : Bool) (vs : List VIx) (vd : VIx) (r : VWord × Flags) : Plan :=
  if m && s.ctx.v[vd].waits then .park .reg
  else gated s [] vs [] [vd] (.act fun t => (t.raise r.2).writeV vd r.1)

/-- Two lanes to one, merged (R125). -/
def lanes2 (s : State) (n : Nat) (m : Bool) (vd va vb : VIx) (f : Nat → Nat → Nat × Flags) : Plan :=
  vecPlan s m [va, vb] vd (mapLanes n m s.ctx.lm (s.vv vd) fun k => f (lane n (s.vv va) k) (lane n (s.vv vb) k))
/-- One lane to one, merged (R125). -/
def lanes1 (s : State) (n : Nat) (m : Bool) (vd va : VIx) (f : Nat → Nat × Flags) : Plan :=
  vecPlan s m [va] vd (mapLanes n m s.ctx.lm (s.vv vd) fun k => f (lane n (s.vv va) k))

/-- The lane operations that have an integer and an FP32 form (R125). -/
def laneAdd (k : Lane) (r : Rnd) (a b : Nat) : Nat × Flags := match k with
  | .f => addF .fp32 r a b
  | k => laneInt k.bits r.sat (slane k.bits a + slane k.bits b)
def laneSub (k : Lane) (r : Rnd) (a b : Nat) : Nat × Flags := match k with
  | .f => subF .fp32 r a b
  | k => laneInt k.bits r.sat (slane k.bits a - slane k.bits b)
def laneMul (k : Lane) (r : Rnd) (a b : Nat) : Nat × Flags := match k with
  | .f => mulF .fp32 r a b
  | k => laneInt k.bits r.sat (slane k.bits a * slane k.bits b)
def laneMin (k : Lane) (r : Rnd) (a b : Nat) : Nat × Flags := match k with
  | .f => minMaxF .fp32 r false a b
  | k => (if slane k.bits b < slane k.bits a then b else a, 0)
def laneMax (k : Lane) (r : Rnd) (a b : Nat) : Nat × Flags := match k with
  | .f => minMaxF .fp32 r true a b
  | k => (if slane k.bits a < slane k.bits b then b else a, 0)
def laneAbs (k : Lane) (r : Rnd) (a : Nat) : Nat × Flags := match k with
  | .f => (a % 2 ^ 31, 0)
  | k => laneInt k.bits r.sat ((slane k.bits a).natAbs : Nat)
def laneNeg (k : Lane) (r : Rnd) (a : Nat) : Nat × Flags := match k with
  | .f => ((a + 2 ^ 31) % 2 ^ 32, 0)
  | k => laneInt k.bits r.sat (0 - slane k.bits a)

/-- R125. -/
def planVadd (k : Lane) (m : Bool) (vd va vb : VIx) (s : State) : Plan := lanes2 s k.bits m vd va vb (laneAdd k s.rnd)
/-- R125. -/
def planVsub (k : Lane) (m : Bool) (vd va vb : VIx) (s : State) : Plan := lanes2 s k.bits m vd va vb (laneSub k s.rnd)
/-- R125. -/
def planVmul (k : Lane) (m : Bool) (vd va vb : VIx) (s : State) : Plan := lanes2 s k.bits m vd va vb (laneMul k s.rnd)
/-- R125. -/
def planVmin (k : Lane) (m : Bool) (vd va vb : VIx) (s : State) : Plan := lanes2 s k.bits m vd va vb (laneMin k s.rnd)
/-- R125. -/
def planVmax (k : Lane) (m : Bool) (vd va vb : VIx) (s : State) : Plan := lanes2 s k.bits m vd va vb (laneMax k s.rnd)
/-- R125. -/
def planVabs (k : Lane) (m : Bool) (vd va : VIx) (s : State) : Plan := lanes1 s k.bits m vd va (laneAbs k s.rnd)
/-- R125. -/
def planVneg (k : Lane) (m : Bool) (vd va : VIx) (s : State) : Plan := lanes1 s k.bits m vd va (laneNeg k s.rnd)
/-- R125. -/
def planVand (e : ESize) (m : Bool) (vd va vb : VIx) (s : State) : Plan :=
  lanes2 s e.bits m vd va vb fun a b => (a &&& b, 0)
/-- R125. -/
def planVor (e : ESize) (m : Bool) (vd va vb : VIx) (s : State) : Plan :=
  lanes2 s e.bits m vd va vb fun a b => (a ||| b, 0)
/-- R125. -/
def planVxor (e : ESize) (m : Bool) (vd va vb : VIx) (s : State) : Plan :=
  lanes2 s e.bits m vd va vb fun a b => (a ^^^ b, 0)
/-- R125. -/
def planVshl (e : ESize) (m : Bool) (vd va vb : VIx) (s : State) : Plan :=
  lanes2 s e.bits m vd va vb fun a b => (a * 2 ^ (b % e.bits) % 2 ^ e.bits, 0)
/-- R125. -/
def planVshr (e : ESize) (m : Bool) (vd va vb : VIx) (s : State) : Plan :=
  lanes2 s e.bits m vd va vb fun a b => (a / 2 ^ (b % e.bits), 0)
/-- R125. -/
def planVsra (e : ESize) (m : Bool) (vd va vb : VIx) (s : State) : Plan :=
  lanes2 s e.bits m vd va vb fun a b => (((BitVec.ofNat e.bits a).sshiftRight (b % e.bits)).toNat, 0)
/-- R125. -/
def planVsel (e : ESize) (m : Bool) (vd va vb vc : VIx) (s : State) : Plan :=
  vecPlan s m [va, vb, vc] vd (mapLanes e.bits m s.ctx.lm (s.vv vd) fun k =>
    (if lane e.bits (s.vv vc) k ≠ 0 then lane e.bits (s.vv va) k else lane e.bits (s.vv vb) k, 0))
/-- R125. With vd = va on a Dead register it reads and writes as any VMOV: DEADRD, and the register is Full with zero
(R14, R123; DEDUCED, log 61). -/
def planVmov (e : ESize) (m : Bool) (vd va : VIx) (s : State) : Plan := lanes1 s e.bits m vd va fun a => (a, 0)
/-- R126. -/
def planVfma (m : Bool) (vd va vb vc : VIx) (s : State) : Plan :=
  vecPlan s m [va, vb, vc] vd (mapLanes 32 m s.ctx.lm (s.vv vd) fun k =>
    fmaF .fp32 s.rnd false false (lane 32 (s.vv va) k) (lane 32 (s.vv vb) k) (lane 32 (s.vv vc) k))

/-! ### Compare (R127) -/

/-- The element bits of a comparison. -/
def VCmpOp.bits : VCmpOp → Nat
  | .int e _ => e.bits
  | .flt _ => 32
/-- One lane compared (R127). -/
def VCmpOp.holds (op : VCmpOp) (r : Rnd) (a b : Nat) : Bool × Flags := match op with
  | .int e c => (match c with
    | .eq => a == b
    | .ne => a != b
    | .lt => decide (slane e.bits a < slane e.bits b)
    | .le => decide (slane e.bits a ≤ slane e.bits b)
    | .ltu => decide (a < b)
    | .leu => decide (a ≤ b), 0)
  | .flt c => match c with
    | .eq => cmpF .fp32 r .eq a b
    | .ne => cmpF .fp32 r .ne a b
    | .lt => cmpF .fp32 r .lt a b
    | .le => cmpF .fp32 r .le a b
    | .un => cmpF .fp32 r .un a b
/-- LM from its bits, bit 0 first. -/
def ofBits (l : List Bool) : Nat := l.foldr (fun b a => b.toNat + 2 * a) 0
/-- R127: a lane that LM masks off is not compared. -/
def planVcmp (op : VCmpOp) (m : Bool) (va vb : VIx) (s : State) : Plan :=
  let n := VCmpOp.bits op
  let rs := (List.range (512 / n)).map fun k =>
    if m && !s.ctx.lm.getLsbD k then (false, 0) else VCmpOp.holds op s.rnd (lane n (s.vv va) k) (lane n (s.vv vb) k)
  gated s [] [va, vb] [] [] (.act fun t => (t.raise (unionF (rs.map (·.2)))).modCtx fun c =>
    { c with lm := BitVec.ofNat 64 (ofBits (rs.map (·.1))) })

/-! ### Lane moves (R128, R129) -/

/-- R128. -/
def planVbcast (e : ESize) (vd : VIx) (g : GIx) (s : State) : Plan :=
  gated s [g] [] [] [vd] (.act fun t => t.writeV vd (ofLanes e.bits (List.replicate (512 / e.bits) (s.gv g).toNat)))
/-- R128. -/
def planVext (e : ESize) (g : GIx) (vd : VIx) (ln : BitVec 6) (s : State) : Plan :=
  gated s [] [vd] [g] [] (.act fun t => t.writeG g (BitVec.ofNat 64 (lane e.bits (s.vv vd) ln.toNat)))
/-- R128, R123: the lanes left alone are read without DEADRD. -/
def planVins (e : ESize) (vd : VIx) (g : GIx) (ln : BitVec 6) (s : State) : Plan :=
  if s.ctx.v[vd].waits then .park .reg
  else gated s [g] [] [] [vd] (.act fun t => t.writeV vd (ofLanes e.bits ((List.range (512 / e.bits)).map fun k =>
    if k = ln.toNat then (s.gv g).toNat else lane e.bits (s.vv vd) k)))
/-- R129. -/
def planVperm (e : ESize) (m : Bool) (vd va vb vc : VIx) (s : State) : Plan :=
  let n := 512 / e.bits
  vecPlan s m [va, vb, vc] vd (mapLanes e.bits m s.ctx.lm (s.vv vd) fun k =>
    let i := lane e.bits (s.vv vb) k % (2 * n)
    (if i < n then lane e.bits (s.vv va) i else lane e.bits (s.vv vc) (i - n), 0))

/-! ### Reductions (R130, R131) -/

/-- One level of the tree: neighbours joined, an absent one passed over (R130). -/
def treeLevel (op : Nat → Nat → Nat × Flags) : List (Option Nat) → List (Option Nat) × Flags
  | x :: y :: l =>
    let r := treeLevel op l
    match x, y with
    | none, y => (y :: r.1, r.2)
    | x, none => (x :: r.1, r.2)
    | some a, some b => (some (op a b).1 :: r.1, (op a b).2 ||| r.2)
  | l => (l, 0)
/-- The tree of R130, `k` levels deep. -/
def tree (op : Nat → Nat → Nat × Flags) : Nat → List (Option Nat) → Option Nat × Flags
  | 0, l => (l.headD none, 0)
  | k + 1, l => let r := treeLevel op l; let t := tree op k r.1; (t.1, r.2 ||| t.2)
/-- The lane operation of a VRED (R130). -/
def VRedOp.lane (op : VRedOp) (k : Lane) (r : Rnd) : Nat → Nat → Nat × Flags := match op with
  | .sum => laneAdd k r
  | .min => laneMin k r
  | .max => laneMax k r
/-- R130. -/
def planVred (op : VRedOp) (k : Lane) (m : Bool) (vd va : VIx) (s : State) : Plan :=
  let n := k.bits
  let r := tree (VRedOp.lane op k s.rnd) 6 ((List.range (512 / n)).map fun i =>
    if !m || s.ctx.lm.getLsbD i then some (lane n (s.vv va) i) else none)
  vecPlan s false [va] vd (ofLanes n [r.1.getD 0], r.2)
/-- The lanes that VAMAX looks at. -/
def amaxLanes (v : VWord) (m : Bool) (lm : Word) : List (Nat × Nat) :=
  ((List.range 16).filter fun k => !m || lm.getLsbD k).map fun k => (k, lane 32 v k)
/-- The result of VAMAX (R131). -/
def amaxV (r : Rnd) (ign : Bool) (xs : List (Nat × Nat)) : VWord × Flags :=
  let nans := xs.filter fun x => isNanC .fp32 x.2
  let map := nans.foldl (fun a x => a + 2 ^ x.1) 0
  let best := (xs.filter fun x => !isNanC .fp32 x.2).foldl (fun a x => max a (codeMag .fp32 (readCode .fp32 r x.2))) 0
  let sig := flagIf (nans.any fun x => isSigC .fp32 x.2) Flag.nv
  match nans with
  | [] => (ofLanes 32 [best], 0)
  | x :: _ => if ign then (ofLanes 32 [best, map], Flag.nv) else (ofLanes 32 [quiet .fp32 r x.2, 0], sig)
/-- R131. -/
def planVamax (ign m : Bool) (vd va : VIx) (s : State) : Plan :=
  vecPlan s false [va] vd (amaxV s.rnd ign (amaxLanes (s.vv va) m s.ctx.lm))

/-! ### Conversions, scaling, dot products, reciprocals (R132 to R135) -/

/-- A conversion's result with flags, from an exact integer. -/
def intCode (n : Nat) (r : Int × Flags) : Nat × Flags := ((BitVec.ofInt n r.1).toNat, r.2)
/-- Sixteen FP32 lanes of va, then sixteen of vb, converted (R132). -/
def narrowed (va vb : VWord) (f : Nat → Nat × Flags) : List (Nat × Flags) :=
  (List.range 32).map fun k => f (if k < 16 then lane 32 va k else lane 32 vb (k - 16))
/-- Sixteen source elements of `n` bits from part `q`, converted (R132). -/
def widened (n : Nat) (va : VWord) (q : Nat) (f : Nat → Nat × Flags) : List (Nat × Flags) :=
  (List.range 16).map fun k => f (lane n va (16 * q + k))
/-- Converted lanes as a register of `n`-bit lanes. -/
def packed (n : Nat) (l : List (Nat × Flags)) : VWord × Flags := (ofLanes n (l.map (·.1)), unionF (l.map (·.2)))
/-- The result of a VCVT (R132). -/
def vcvtV (c : VCvt) (r : Rnd) (va vb : VWord) (q : Nat) : VWord × Flags := match c with
  | .f32f16 => packed 16 (narrowed va vb (convF .fp32 .fp16 r))
  | .f32bf16 => packed 16 (narrowed va vb (convF .fp32 .bf16 r))
  | .f32e5m2 => packed 8 (narrowed va vb (convF .fp32 .e5m2 r))
  | .f32e4m3 => packed 8 (narrowed va vb (convF .fp32 .e4m3 r))
  | .f32e2m1 => packed 4 (narrowed va vb (convF .fp32 .e2m1 r))
  | .f32i32 => packed 32 (widened 32 va 0 fun x => intCode 32 (toIntF .fp32 r 32 x))
  | .f32i8 => packed 8 (narrowed va vb fun x => intCode 8 (toIntF .fp32 r 8 x))
  | .f16f32 => packed 32 (widened 16 va q (convF .fp16 .fp32 r))
  | .bf16f32 => packed 32 (widened 16 va q (convF .bf16 .fp32 r))
  | .e5m2f32 => packed 32 (widened 8 va q (convF .e5m2 .fp32 r))
  | .e4m3f32 => packed 32 (widened 8 va q (convF .e4m3 .fp32 r))
  | .e2m1f32 => packed 32 (widened 4 va q (convF .e2m1 .fp32 r))
  | .i32f32 => packed 32 (widened 32 va 0 fun x => fromIntF .fp32 r (slane 32 x))
  | .i8f32 => packed 32 (widened 8 va q fun x => fromIntF .fp32 r (slane 8 x))
/-- Does the conversion read a second register? -/
def VCvt.narrows : VCvt → Bool
  | .f32f16 | .f32bf16 | .f32e5m2 | .f32e4m3 | .f32e2m1 | .f32i8 => true
  | _ => false
/-- R132: the vb field is a register of a narrowing conversion and a part number of a widening one. -/
def planVcvt (c : VCvt) (vd va x : VIx) (s : State) : Plan :=
  vecPlan s false (if VCvt.narrows c then [va, x] else [va]) vd (vcvtV c s.rnd (s.vv va) (s.vv x) x.val)
/-- R133. -/
def planVscale (m : Bool) (vd va vb : VIx) (s : State) : Plan :=
  lanes2 s 32 m vd va vb fun a b => scaleF s.rnd a (b % 256)
/-- Lane `k` of the integer VDOT (R134). -/
def dotInt (r : Rnd) (va vb vc : VWord) (k : Nat) : Nat × Flags :=
  laneInt 32 r.sat ((List.range 4).foldl (fun a j => a + slane 8 (lane 8 va (4 * k + j)) * slane 8 (lane 8 vb (4 * k + j)))
    (slane 32 (lane 32 vc k)))
/-- The FP32 VDOT (R134). -/
def dotFloat (r : Rnd) (va vb vc : VWord) : Nat × Flags :=
  let ps := (List.range 16).map fun k => mulF .fp32 r (lane 32 va k) (lane 32 vb k)
  let t := tree (addF .fp32 r) 4 (ps.map fun p => some p.1)
  let z := addF .fp32 r (t.1.getD 0) (lane 32 vc 0)
  (z.1, unionF (ps.map (·.2)) ||| t.2 ||| z.2)
/-- R134. -/
def planVdot (fl : Bool) (vd va vb vc : VIx) (s : State) : Plan :=
  vecPlan s false [va, vb, vc] vd (if fl then packed 32 [dotFloat s.rnd (s.vv va) (s.vv vb) (s.vv vc)]
    else packed 32 ((List.range 16).map (dotInt s.rnd (s.vv va) (s.vv vb) (s.vv vc))))
/-- R135. -/
def planVrcp (vd va : VIx) (s : State) : Plan := lanes1 s 32 false vd va (rcpF s.rnd)
/-- R135. -/
def planVexp2 (vd va : VIx) (s : State) : Plan := lanes1 s 32 false vd va (exp2F s.rnd)

/-! ### The meanings: each instruction alone in its pair -/

/-- Vadd (R122, R82, R124, R123, R125). -/
def execVadd (k : Lane) (m : Bool) (vd va vb : VIx) (s : State) : Host.Outcome State Fault Refusal :=
  .next (issueOne (planVadd k m vd va vb s) s)

/-- Vsub (R125). -/
def execVsub (k : Lane) (m : Bool) (vd va vb : VIx) (s : State) : Host.Outcome State Fault Refusal :=
  .next (issueOne (planVsub k m vd va vb s) s)

/-- Vmul (R125). -/
def execVmul (k : Lane) (m : Bool) (vd va vb : VIx) (s : State) : Host.Outcome State Fault Refusal :=
  .next (issueOne (planVmul k m vd va vb s) s)

/-- Vmin (R125). -/
def execVmin (k : Lane) (m : Bool) (vd va vb : VIx) (s : State) : Host.Outcome State Fault Refusal :=
  .next (issueOne (planVmin k m vd va vb s) s)

/-- Vmax (R125). -/
def execVmax (k : Lane) (m : Bool) (vd va vb : VIx) (s : State) : Host.Outcome State Fault Refusal :=
  .next (issueOne (planVmax k m vd va vb s) s)

/-- Vabs (R125). -/
def execVabs (k : Lane) (m : Bool) (vd va : VIx) (s : State) : Host.Outcome State Fault Refusal :=
  .next (issueOne (planVabs k m vd va s) s)

/-- Vneg (R125). -/
def execVneg (k : Lane) (m : Bool) (vd va : VIx) (s : State) : Host.Outcome State Fault Refusal :=
  .next (issueOne (planVneg k m vd va s) s)

/-- Vand (R125). -/
def execVand (e : ESize) (m : Bool) (vd va vb : VIx) (s : State) : Host.Outcome State Fault Refusal :=
  .next (issueOne (planVand e m vd va vb s) s)

/-- Vor (R125). -/
def execVor (e : ESize) (m : Bool) (vd va vb : VIx) (s : State) : Host.Outcome State Fault Refusal :=
  .next (issueOne (planVor e m vd va vb s) s)

/-- Vxor (R125). -/
def execVxor (e : ESize) (m : Bool) (vd va vb : VIx) (s : State) : Host.Outcome State Fault Refusal :=
  .next (issueOne (planVxor e m vd va vb s) s)

/-- Vshl (R125). -/
def execVshl (e : ESize) (m : Bool) (vd va vb : VIx) (s : State) : Host.Outcome State Fault Refusal :=
  .next (issueOne (planVshl e m vd va vb s) s)

/-- Vshr (R125). -/
def execVshr (e : ESize) (m : Bool) (vd va vb : VIx) (s : State) : Host.Outcome State Fault Refusal :=
  .next (issueOne (planVshr e m vd va vb s) s)

/-- Vsra (R125). -/
def execVsra (e : ESize) (m : Bool) (vd va vb : VIx) (s : State) : Host.Outcome State Fault Refusal :=
  .next (issueOne (planVsra e m vd va vb s) s)

/-- Vsel (R125). -/
def execVsel (e : ESize) (m : Bool) (vd va vb vc : VIx) (s : State) : Host.Outcome State Fault Refusal :=
  .next (issueOne (planVsel e m vd va vb vc s) s)

/-- Vmov (R125). -/
def execVmov (e : ESize) (m : Bool) (vd va : VIx) (s : State) : Host.Outcome State Fault Refusal :=
  .next (issueOne (planVmov e m vd va s) s)

/-- Vfma (R126). -/
def execVfma (m : Bool) (vd va vb vc : VIx) (s : State) : Host.Outcome State Fault Refusal :=
  .next (issueOne (planVfma m vd va vb vc s) s)

/-- Vcmp (R127). -/
def execVcmp (op : VCmpOp) (m : Bool) (va vb : VIx) (s : State) : Host.Outcome State Fault Refusal :=
  .next (issueOne (planVcmp op m va vb s) s)

/-- Vbcast (R128). -/
def execVbcast (e : ESize) (vd : VIx) (g : GIx) (s : State) : Host.Outcome State Fault Refusal :=
  .next (issueOne (planVbcast e vd g s) s)

/-- Vext (R128). -/
def execVext (e : ESize) (g : GIx) (vd : VIx) (ln : BitVec 6) (s : State) : Host.Outcome State Fault Refusal :=
  .next (issueOne (planVext e g vd ln s) s)

/-- Vins (R128, R123). -/
def execVins (e : ESize) (vd : VIx) (g : GIx) (ln : BitVec 6) (s : State) : Host.Outcome State Fault Refusal :=
  .next (issueOne (planVins e vd g ln s) s)

/-- Vperm (R129). -/
def execVperm (e : ESize) (m : Bool) (vd va vb vc : VIx) (s : State) : Host.Outcome State Fault Refusal :=
  .next (issueOne (planVperm e m vd va vb vc s) s)

/-- Vred (R130). -/
def execVred (op : VRedOp) (k : Lane) (m : Bool) (vd va : VIx) (s : State) : Host.Outcome State Fault Refusal :=
  .next (issueOne (planVred op k m vd va s) s)

/-- Vamax (R131). -/
def execVamax (ign m : Bool) (vd va : VIx) (s : State) : Host.Outcome State Fault Refusal :=
  .next (issueOne (planVamax ign m vd va s) s)

/-- Vcvt (R132). -/
def execVcvt (c : VCvt) (vd va x : VIx) (s : State) : Host.Outcome State Fault Refusal :=
  .next (issueOne (planVcvt c vd va x s) s)

/-- Vscale (R133). -/
def execVscale (m : Bool) (vd va vb : VIx) (s : State) : Host.Outcome State Fault Refusal :=
  .next (issueOne (planVscale m vd va vb s) s)

/-- Vdot (R134). -/
def execVdot (fl : Bool) (vd va vb vc : VIx) (s : State) : Host.Outcome State Fault Refusal :=
  .next (issueOne (planVdot fl vd va vb vc s) s)

/-- Vrcp (R135). -/
def execVrcp (vd va : VIx) (s : State) : Host.Outcome State Fault Refusal :=
  .next (issueOne (planVrcp vd va s) s)

/-- Vexp2 (R135). -/
def execVexp2 (vd va : VIx) (s : State) : Host.Outcome State Fault Refusal :=
  .next (issueOne (planVexp2 vd va s) s)

end Sys2Proof.Machine
end

