-- ==== Sys2Proof/Machine/Issue.lean ====
section
/-! DEFINITION. Issue: fetching and decoding a pair (02, R41 to R50; 05, R119), the choice among the slots of a core (19,
R342), and the store comparator of redundant tasks (23, R379 to R381). -/

namespace Sys2Proof.Machine

/-! ### The plan of an instruction -/

/-- What an instruction does in its slot of a pair. Context instructions and events stand in no pair. -/
def planOf (i : Instr) (s : State) : Plan := match i with
  | .cnop => planCnop s
  | .br off => planBr off s
  | .brWide lit => planBrWide lit s
  | .call off => planCall off s
  | .callWide lit => planCallWide lit s
  | .jmp a => planJmp a s
  | .callr a => planCallr a s
  | .ret => planRet s
  | .halt => planHalt s
  | .trapi code => planTrapi code s
  | .syscall code => planSyscall code s
  | .movl d lit => planMovl d lit s
  | .movh d lit => planMovh d lit s
  | .ld sz x d base off => planLd sz x d base off s
  | .ldWide sz x d base lit => planLdWide sz x d base lit s
  | .lds sz x d base off => planLds sz x d base off s
  | .ldsWide sz x d base lit => planLdsWide sz x d base lit s
  | .st sz x d base off => planSt sz x d base off s
  | .stWide sz x d base lit => planStWide sz x d base lit s
  | .ldv x d base off => planLdv x d base off s
  | .ldvWide x d base lit => planLdvWide x d base lit s
  | .stv x d base off => planStv x d base off s
  | .stvWide x d base lit => planStvWide x d base lit s
  | .ldvs e x d a b => planLdvs e x d a b s
  | .stvs e x d a b => planStvs e x d a b s
  | .vgath e x d a b => planVgath e x d a b s
  | .vscat e x d a b => planVscat e x d a b s
  | .aadd sz sc o d addr v => planAadd sz sc o d addr v s
  | .aand sz sc o d addr v => planAand sz sc o d addr v s
  | .aor sz sc o d addr v => planAor sz sc o d addr v s
  | .axor sz sc o d addr v => planAxor sz sc o d addr v s
  | .amin sz sc o d addr v => planAmin sz sc o d addr v s
  | .amax sz sc o d addr v => planAmax sz sc o d addr v s
  | .aswp sz sc o d addr v => planAswp sz sc o d addr v s
  | .acas sz sc o d addr v => planAcas sz sc o d addr v s
  | .afadd sc o d addr v => planAfadd sc o d addr v s
  | .fence sc o => planFence sc o s
  | .sbind d a => planSbind d a s
  | .sunbind d => planSunbind d s
  | .sstat d a => planSstat d a s
  | .tld td a b => planTld td a b s
  | .tldBd td a b => planTldBd td a b s
  | .tst td a b => planTst td a b s
  | .tstBd td a b => planTstBd td a b s
  | .tplane p d a b => planTplane p d a b s
  | .regput a b => planRegput a b s
  | .emptyr d => planEmptyr d s
  | .obnew k d a b => planObnew k d a b s
  | .oblige a => planOblige a s
  | .signal a b => planSignal a b s
  | .arrive a => planArrive a s
  | .wait d a b => planWait d a b s
  | .waitSh d a b => planWaitSh d a b s
  | .waita d a => planWaita d a s
  | .xfer a b => planXfer a b s
  | .obqry d a => planObqry d a s
  | .rnkwin d b => planRnkwin d b s
  | .poison a code => planPoison a code s
  | .tlwait e b => planTlwait e b s
  | .cpyqWt a => planCpyqWt a s
  | .cpyqBz p a => planCpyqBz p a s
  | .wfm d b => planWfm d b s
  | .mbrd d b => planMbrd d b s
  | .send n a b => planSend n a b s
  | .sendOb n d a b => planSendOb n d a b s
  | .migr a => planMigr a s
  | .shelve d a b => planShelve d a b s
  | .wcopen d a b => planWcopen d a b s
  | .wcsel a => planWcsel a s
  | .wcrel d a => planWcrel d a s
  | .wcrelRp d a b => planWcrelRp d a b s
  | .wcclose a => planWcclose a s
  | .mcst n a b => planMcst n a b s
  | .mcrel d a => planMcrel d a s
  | .mcrelRp d a b => planMcrelRp d a b s
  | .redput op ign d a b => planRedput op ign d a b s
  | .iordWt a => planIordWt a s
  | .iordBz p a => planIordBz p a s
  | .scnext q d => planScnext q d s
  | .swdecl d a => planSwdecl d a s
  | .swbind d a b => planSwbind d a b s
  | .swrun a b => planSwrun a b s
  | .swwake a b => planSwwake a b s
  | .swstat d a => planSwstat d a s
  | .crd d r => planCrd d r s
  | .cwr d r => planCwr d r s
  | .ctxrd d a b => planCtxrd d a b s
  | .ctxwr d a b => planCtxwr d a b s
  | .resume a => planResume a s
  | .kill a => planKill a s
  | .tlbinv a b => planTlbinv a b s
  | .rdtime d => planRdtime d s
  | .rdcyc d => planRdcyc d s
  | .pcnt d a => planPcnt d a s
  | .anop => planAnop s
  | .add d a b => planAdd d a b s
  | .sub d a b => planSub d a b s
  | .mul d a b => planMul d a b s
  | .mulh d a b => planMulh d a b s
  | .mulhu d a b => planMulhu d a b s
  | .div d a b => planDiv d a b s
  | .divu d a b => planDivu d a b s
  | .rem d a b => planRem d a b s
  | .remu d a b => planRemu d a b s
  | .and d a b => planAnd d a b s
  | .or d a b => planOr d a b s
  | .xor d a b => planXor d a b s
  | .andn d a b => planAndn d a b s
  | .shl d a b => planShl d a b s
  | .shr d a b => planShr d a b s
  | .sra d a b => planSra d a b s
  | .min d a b => planMin d a b s
  | .max d a b => planMax d a b s
  | .minu d a b => planMinu d a b s
  | .maxu d a b => planMaxu d a b s
  | .mov d a => planMov d a s
  | .addi d a imm => planAddi d a imm s
  | .andi d a imm => planAndi d a imm s
  | .ori d a imm => planOri d a imm s
  | .xori d a imm => planXori d a imm s
  | .shli d a sh => planShli d a sh s
  | .shri d a sh => planShri d a sh s
  | .srai d a sh => planSrai d a sh s
  | .movi d imm => planMovi d imm s
  | .lea d a b q imm => planLea d a b q imm s
  | .cmp c d a b => planCmp c d a b s
  | .cmpi c d a imm => planCmpi c d a imm s
  | .clz d a => planClz d a s
  | .ctz d a => planCtz d a s
  | .popc d a => planPopc d a s
  | .sext d a w => planSext d a w s
  | .zext d a w => planZext d a w s
  | .bfx sx d a q n => planBfx sx d a q n s
  | .bfi d a q n => planBfi d a q n s
  | .sel d a b p => planSel d a b p s
  | .pand d a b => planPand d a b s
  | .por d a b => planPor d a b s
  | .pxor d a b => planPxor d a b s
  | .pnot d a => planPnot d a s
  | .pget d => planPget d s
  | .pset a => planPset a s
  | .lmget d => planLmget d s
  | .lmset a => planLmset a s
  | .fadd f d a b => planFadd f d a b s
  | .fsub f d a b => planFsub f d a b s
  | .fmul f d a b => planFmul f d a b s
  | .fmin f d a b => planFmin f d a b s
  | .fmax f d a b => planFmax f d a b s
  | .fdiv f d a b => planFdiv f d a b s
  | .fsqrt f d a => planFsqrt f d a s
  | .fsgn f m d a b => planFsgn f m d a b s
  | .fclass f d a => planFclass f d a s
  | .ffma f negP negA d a b c => planFfma f negP negA d a b c s
  | .fcmp f c d a b => planFcmp f c d a b s
  | .fcvt f c d a => planFcvt f c d a s
  | .vadd k m vd va vb => planVadd k m vd va vb s
  | .vsub k m vd va vb => planVsub k m vd va vb s
  | .vmul k m vd va vb => planVmul k m vd va vb s
  | .vmin k m vd va vb => planVmin k m vd va vb s
  | .vmax k m vd va vb => planVmax k m vd va vb s
  | .vabs k m vd va => planVabs k m vd va s
  | .vneg k m vd va => planVneg k m vd va s
  | .vand e m vd va vb => planVand e m vd va vb s
  | .vor e m vd va vb => planVor e m vd va vb s
  | .vxor e m vd va vb => planVxor e m vd va vb s
  | .vshl e m vd va vb => planVshl e m vd va vb s
  | .vshr e m vd va vb => planVshr e m vd va vb s
  | .vsra e m vd va vb => planVsra e m vd va vb s
  | .vsel e m vd va vb vc => planVsel e m vd va vb vc s
  | .vmov e m vd va => planVmov e m vd va s
  | .vfma m vd va vb vc => planVfma m vd va vb vc s
  | .vcmp op m va vb => planVcmp op m va vb s
  | .vbcast e vd g => planVbcast e vd g s
  | .vext e g vd lane => planVext e g vd lane s
  | .vins e vd g lane => planVins e vd g lane s
  | .vperm e m vd va vb vc => planVperm e m vd va vb vc s
  | .vred op k m vd va => planVred op k m vd va s
  | .vamax ign m vd va => planVamax ign m vd va s
  | .vcvt c vd va x => planVcvt c vd va x s
  | .vscale m vd va vb => planVscale m vd va vb s
  | .vdot fl vd va vb vc => planVdot fl vd va vb vc s
  | .vrcp vd va => planVrcp vd va s
  | .vexp2 vd va => planVexp2 vd va s
  | .tcfg td a => planTcfg td a s
  | .tzero td => planTzero td s
  | .trel td => planTrel td s
  | .mfmt a => planMfmt a s
  | .mma td a b => planMma td a b s
  | .mmai td a b => planMmai td a b s
  | .trowr v td b => planTrowr v td b s
  | .troww td v b => planTroww td v b s
  | .tcolr v td b => planTcolr v td b s
  | .tcolw td v b => planTcolw td v b s
  | .tstat a td => planTstat a td s
  | .ttrans td ta => planTtrans td ta s
  | .ctxCnop | .cmov .. | .cidx .. | .cget .. | .cput .. | .cadd .. | .csub .. | .cmul .. | .cand ..
  | .cor .. | .cshl .. | .cshr .. | .cmin .. | .cmax .. | .cfadd .. | .cfmul .. | .cfmax .. | .ccmp ..
  | .cjmp .. | .cnb .. | .cin .. | .cout .. | .cwe .. | .cws .. | .cww .. | .csig .. | .cdone | .cflt ..
  | .accessComplete .. | .lateFault .. | .registerFill .. | .streamElementFetch .. | .streamDrain ..
  | .matrixRequestStart .. | .matrixResultWrite .. | .engineOperationStart .. | .engineOperationComplete ..
  | .waitShelveTimeout .. | .orphanTimeout .. | .slotClaim .. | .migrationArrival .. | .starvationGuard ..
  | .preEmption .. | .preEmptionSave .. | .replyCatcher .. | .trapRecord .. | .breakpoint ..
  | .storeCompare .. | .containment .. | .pageWalk .. | .wsfrzWrite .. | .wsfrzCopyUpdate ..
  | .sampctlWrite .. | .pcntclr .. | .registerWrite .. | .samplingPulse | .weightStoreRefresh ..
  | .dramRefresh .. | .temperatureChange .. | .overheat .. | .scrub .. | .powerGrant .. | .tailWrite ..
  | .queueBind | .queueUnbind .. | .nopEntry .. | .launchEntry .. | .waitobj .. | .signalobjOblige ..
  | .signalobjSignal .. | .signalobjPoison .. | .copyEntry .. | .jumpEntry .. | .callEntry ..
  | .returnEntry .. | .skipif .. | .fenceEntry .. | .debugHalt .. | .debugRead .. | .debugWrite ..
  | .debugSetbp .. | .debugClrbp .. | .debugResume .. | .completionRecord .. | .hostMemoryAccess ..
  | .expanderLinkDown .. | .partFailure .. | .heartbeat .. | .flitResend .. | .linkDown .. | .linkRetrain ..
  | .packetExpiry .. | .pktWrite .. | .pktMwrite .. | .pktRead .. | .pktRdata .. | .pktAtom .. | .pktAdata ..
  | .pktFlag .. | .pktMflag .. | .pktOpen .. | .pktOpenr .. | .pktShort .. | .pktRefuse .. | .pktReport ..
  | .pktBusy .. | .flagResend .. | .holdTimeout .. | .shortResend .. | .reportTimeout .. | .groupDecision ..
  | .groupReportTimeout .. | .replayLogRetire .. | .fabricReadResend .. | .atomicTimeout ..
  | .redputPacket .. | .redres .. | .reductionTimeout .. | .reductionSlotFree .. | .silent .. | .pktDead ..
  | .sweepStart .. | .bandVisit .. | .idleWake .. | .engineSwitch .. | .coldReset .. | .warmReset
  | .clusterReset .. | .coreReset .. | .imageUpload .. | .attestationRequest .. | .encodingFault
  | .fetchFault .. | .unassignedPacketType .. | .warmResetComplete => Plan.nop

/-- The plan of one slot of a pair: one whose predicate is false does nothing (R45, R46). -/
def slotPlan (x : SlotInstr) (s : State) : Plan := if s.ctx.pred x.pi != x.pn then planOf x.ins s else Plan.nop

/-- Does an instruction put a request into the queue of the matrix unit (R137)? -/
def queues : Instr → Bool
  | .tld .. | .tldBd .. | .tst .. | .tstBd .. | .tcfg .. | .tzero .. | .trel .. | .mma .. | .mmai .. | .trowr .. | .troww .. | .tcolr ..
  | .tcolw .. | .ttrans .. => true
  | _ => false
/-- Does one slot of a pair put a request into the queue of the matrix unit? -/
def slotQueues (x : SlotInstr) (s : State) : Bool := (s.ctx.pred x.pi != x.pn) && queues x.ins

/-- The plans of the two slots of a pair. Two requests of one pair need two places in the queue of the matrix unit (R137). -/
def pairPlans (p : Pair) (s : State) : Plan × Plan :=
  match slotPlan p.c s, slotPlan p.a s with
  | .commit r n f, .commit r' n' f' =>
    if 3 ≤ s.cur.mxq.length && slotQueues p.c s && slotQueues p.a s then (.park .matrix, .commit r' n' f')
    else (.commit r n f, .commit r' n' f')
  | c, a => (c, a)

/-! ### Fetch (R41, R119, R319) -/

/-- The pair at the PC as the instruction cache holds it, under the task's root and its region's code bounds (R319). -/
def State.inCache (s : State) : Option Cached :=
  let rcb := s.ctx.rcb
  s.cur.icache.find? fun e =>
    e.root == s.ptRoot rcb && e.va == s.ctx.pc && e.lo == s.codeBase rcb && e.hi == s.codeEnd rcb

/-- The words of the pair at the PC in memory, or the fault (R119). -/
def State.fetchMem (s : State) : Except Trap Word :=
  let pc := s.ctx.pc
  match s.resolve s.who pc .fetch with
  | .error c => .error (Trap.at_ c pc)
  | .ok (.fab _ _) => .error (Trap.at_ Cause.addrTag pc)
  | .ok (.mem key) => match s.dataFault key 8 false with
    | some f => .error (Trap.at_ f.1 pc)
    | none => .ok (BitVec.ofNat 64 (s.load key 8))

/-- The words of the pair at the PC: from the instruction cache or from memory, which is open where a store has changed
them meanwhile (R319; log 35). -/
def State.fetchWords (s : State) : Except Trap Word := match s.inCache with
  | some e => if Config.fetchHit s.clk s.core then .ok e.word else s.fetchMem
  | none => s.fetchMem

/-- The words of the pair at the PC, and what they decode to or the fault. No words are read where the fetch itself
fails. -/
def State.fetched (s : State) : Word × Except Trap Pair :=
  let pc := s.ctx.pc
  let rcb := s.ctx.rcb
  if pc < s.codeBase rcb ∨ s.codeEnd rcb ≤ pc then (0, .error (Trap.at_ Cause.fetchBound pc))
  else match s.fetchWords with
    | .error t => (0, .error t)
    | .ok w => match decodePair (w.toNat % 2 ^ 32) (w.toNat / 2 ^ 32) with
      | none => (w, .error (Trap.plain Cause.illegal))
      | some p => (w, .ok p)

/-- The pair that has been fetched is in the instruction cache (R319); a pair whose fetch failed has no words. -/
def State.cacheFetch (s : State) (f : Word × Except Trap Pair) : State := match f.2 with
  | .error _ => s
  | .ok _ =>
    let rcb := s.ctx.rcb
    let e : Cached := { root := s.ptRoot rcb, va := s.ctx.pc, word := f.1, lo := s.codeBase rcb, hi := s.codeEnd rcb }
    s.modCur fun c => { c with icache := e :: c.icache.filter fun x => !(x.root == e.root && x.va == e.va) }

/-- A fetched pair issues, or its fault is taken; a fetch leaves nothing else behind (R119). -/
def State.issueFetched (r : Except Trap Pair) (s : State) : State := match r with
  | .error t => s.trapNow t
  | .ok p => issuePair p.settle (pairPlans p s).1 (pairPlans p s).2 s

/-! ### The store comparator (R381) -/

/-- The registers whose values an outside effect uses, or none for an instruction that has no outside effect (R381). -/
def effectOperands (i : Instr) : Option (List GIx × List VIx) := match i with
  | .halt => some ([], [])
  | .st _ _ d base _ => some ([base, d], [])
  | .stWide _ _ d base _ => some ([base, d], [])
  | .stv _ d base _ => some ([base], [d])
  | .stvWide _ d base _ => some ([base], [d])
  | .stvs _ _ d a b => some ([a, b], [d])
  | .vscat _ _ d a b => some ([a], [b, d])
  | .aadd _ _ _ _ addr v => some ([addr, v], [])
  | .aand _ _ _ _ addr v => some ([addr, v], [])
  | .aor _ _ _ _ addr v => some ([addr, v], [])
  | .axor _ _ _ _ addr v => some ([addr, v], [])
  | .amin _ _ _ _ addr v => some ([addr, v], [])
  | .amax _ _ _ _ addr v => some ([addr, v], [])
  | .aswp _ _ _ _ addr v => some ([addr, v], [])
  | .acas _ _ _ _ addr v => some ([addr, v, v + 1], [])
  | .afadd _ _ _ addr v => some ([addr, v], [])
  | .tst _ a b => some ([a, b], [])
  | .tstBd _ a b => some ([a, b], [])
  | .tplane _ d a b => some ([d, a, a + 1, b], [])
  | .regput a b => some ([a, b], [])
  | .obnew _ _ a b => some ([a, b], [])
  | .oblige a => some ([a], [])
  | .signal a b => some ([a, b], [])
  | .arrive a => some ([a], [])
  | .wait _ a b => some ([a, b], [])
  | .waitSh _ a b => some ([a, b], [])
  | .waita _ a => some ([a], [])
  | .xfer a b => some ([a, b], [])
  | .obqry _ a => some ([a], [])
  | .rnkwin _ b => some ([b], [])
  | .poison a _ => some ([a], [])
  | .tlwait _ b => some ([b], [])
  | .cpyqWt a => some ([a, a + 1, a + 2, a + 3], [])
  | .cpyqBz _ a => some ([a, a + 1, a + 2, a + 3], [])
  | .wfm _ b => some ([b], [])
  | .mbrd _ b => some ([b], [])
  | .send n a b => some (a :: sendRegs b n, [])
  | .sendOb n d a b => some (d :: a :: sendRegs b n, [])
  | .migr a => some ([a], [])
  | .shelve _ a b => some ([a, b], [])
  | .wcopen _ a b => some ([a, b], [])
  | .wcsel a => some ([a], [])
  | .wcrel _ a => some ([a], [])
  | .wcrelRp _ a b => some ([a, b], [])
  | .wcclose a => some ([a], [])
  | .mcst _ a b => some ([a, b], [])
  | .mcrel _ a => some ([a], [])
  | .mcrelRp _ a b => some ([a, b], [])
  | .redput _ _ _ a b => some ([a, b], [])
  | .iordWt a => some ([a, a + 1, a + 2, a + 3], [])
  | .iordBz _ a => some ([a, a + 1, a + 2, a + 3], [])
  | .scnext _ _ => some ([], [])
  | .swdecl _ a => some ([a], [])
  | .swbind _ a b => some ([a, b], [])
  | .swrun a b => some ([a, b], [])
  | .swwake a b => some ([a, b], [])
  | .swstat _ a => some ([a], [])
  | .cwr d r => if sharedReg r then some ([d], []) else none
  | .ctxrd _ a b => some ([a, b], [])
  | .ctxwr d a b => some ([a, b, d], [])
  | .resume a => some ([a], [])
  | .kill a => some ([a], [])
  | .tlbinv a b => some ([a, b], [])
  | .mfmt a => some ([a], [])
  | .cnop | .br .. | .brWide .. | .call .. | .callWide .. | .jmp .. | .callr .. | .ret | .trapi ..
  | .syscall .. | .movl .. | .movh .. | .ld .. | .ldWide .. | .lds .. | .ldsWide .. | .ldv .. | .ldvWide ..
  | .ldvs .. | .vgath .. | .fence .. | .sbind .. | .sunbind .. | .sstat .. | .tld .. | .tldBd .. | .emptyr ..
  | .crd .. | .rdtime .. | .rdcyc .. | .pcnt .. | .anop | .add .. | .sub .. | .mul .. | .mulh .. | .mulhu ..
  | .div .. | .divu .. | .rem .. | .remu .. | .and .. | .or .. | .xor .. | .andn .. | .shl .. | .shr ..
  | .sra .. | .min .. | .max .. | .minu .. | .maxu .. | .mov .. | .addi .. | .andi .. | .ori .. | .xori ..
  | .shli .. | .shri .. | .srai .. | .movi .. | .lea .. | .cmp .. | .cmpi .. | .clz .. | .ctz .. | .popc ..
  | .sext .. | .zext .. | .bfx .. | .bfi .. | .sel .. | .pand .. | .por .. | .pxor .. | .pnot .. | .pget ..
  | .pset .. | .lmget .. | .lmset .. | .fadd .. | .fsub .. | .fmul .. | .fmin .. | .fmax .. | .fdiv ..
  | .fsqrt .. | .fsgn .. | .fclass .. | .ffma .. | .fcmp .. | .fcvt .. | .vadd .. | .vsub .. | .vmul ..
  | .vmin .. | .vmax .. | .vabs .. | .vneg .. | .vand .. | .vor .. | .vxor .. | .vshl .. | .vshr ..
  | .vsra .. | .vsel .. | .vmov .. | .vfma .. | .vcmp .. | .vbcast .. | .vext .. | .vins .. | .vperm ..
  | .vred .. | .vamax .. | .vcvt .. | .vscale .. | .vdot .. | .vrcp .. | .vexp2 .. | .tcfg .. | .tzero ..
  | .trel .. | .mma .. | .mmai .. | .trowr .. | .troww .. | .tcolr .. | .tcolw .. | .tstat .. | .ttrans ..
  | .ctxCnop | .cmov .. | .cidx .. | .cget .. | .cput .. | .cadd .. | .csub .. | .cmul .. | .cand ..
  | .cor .. | .cshl .. | .cshr .. | .cmin .. | .cmax .. | .cfadd .. | .cfmul .. | .cfmax .. | .ccmp ..
  | .cjmp .. | .cnb .. | .cin .. | .cout .. | .cwe .. | .cws .. | .cww .. | .csig .. | .cdone | .cflt ..
  | .accessComplete .. | .lateFault .. | .registerFill .. | .streamElementFetch .. | .streamDrain ..
  | .matrixRequestStart .. | .matrixResultWrite .. | .engineOperationStart .. | .engineOperationComplete ..
  | .waitShelveTimeout .. | .orphanTimeout .. | .slotClaim .. | .migrationArrival .. | .starvationGuard ..
  | .preEmption .. | .preEmptionSave .. | .replyCatcher .. | .trapRecord .. | .breakpoint ..
  | .storeCompare .. | .containment .. | .pageWalk .. | .wsfrzWrite .. | .wsfrzCopyUpdate ..
  | .sampctlWrite .. | .pcntclr .. | .registerWrite .. | .samplingPulse | .weightStoreRefresh ..
  | .dramRefresh .. | .temperatureChange .. | .overheat .. | .scrub .. | .powerGrant .. | .tailWrite ..
  | .queueBind | .queueUnbind .. | .nopEntry .. | .launchEntry .. | .waitobj .. | .signalobjOblige ..
  | .signalobjSignal .. | .signalobjPoison .. | .copyEntry .. | .jumpEntry .. | .callEntry ..
  | .returnEntry .. | .skipif .. | .fenceEntry .. | .debugHalt .. | .debugRead .. | .debugWrite ..
  | .debugSetbp .. | .debugClrbp .. | .debugResume .. | .completionRecord .. | .hostMemoryAccess ..
  | .expanderLinkDown .. | .partFailure .. | .heartbeat .. | .flitResend .. | .linkDown .. | .linkRetrain ..
  | .packetExpiry .. | .pktWrite .. | .pktMwrite .. | .pktRead .. | .pktRdata .. | .pktAtom .. | .pktAdata ..
  | .pktFlag .. | .pktMflag .. | .pktOpen .. | .pktOpenr .. | .pktShort .. | .pktRefuse .. | .pktReport ..
  | .pktBusy .. | .flagResend .. | .holdTimeout .. | .shortResend .. | .reportTimeout .. | .groupDecision ..
  | .groupReportTimeout .. | .replayLogRetire .. | .fabricReadResend .. | .atomicTimeout ..
  | .redputPacket .. | .redres .. | .reductionTimeout .. | .reductionSlotFree .. | .silent .. | .pktDead ..
  | .sweepStart .. | .bandVisit .. | .idleWake .. | .engineSwitch .. | .coldReset .. | .warmReset
  | .clusterReset .. | .coreReset .. | .imageUpload .. | .attestationRequest .. | .encodingFault
  | .fetchFault .. | .unassignedPacketType .. | .warmResetComplete => none

/-- Does one slot of a pair have an outside effect (R46, R381)? -/
def slotEffect (x : SlotInstr) (s : State) : Bool := (s.ctx.pred x.pi != x.pn) && (effectOperands x.ins).isSome

/-- The operand values of one slot of a pair, with the lane mask where v registers take part. -/
def slotWords (x : SlotInstr) (s : State) : List Word :=
  if s.ctx.pred x.pi != x.pn then match effectOperands x.ins with
    | some (gs, vs) => gs.map s.gv ++ (vs.flatMap fun v => (List.range 8).map fun k => (s.vv v).extractLsb' (64 * k) 64) ++
        (if vs.isEmpty then [] else [s.ctx.lm])
    | none => []
  else []

/-- What a copy brings to the comparator: the pair, the PC, which of its slots have an effect, and the operand values. -/
def State.effectWords (s : State) (r : Except Trap Pair) : List Word := match r with
  | .error _ => [s.pair, s.ctx.pc]
  | .ok p => [s.pair, s.ctx.pc, BitVec.ofNat 64 ((slotEffect p.c s).toNat + 2 * (slotEffect p.a s).toNat)] ++
      slotWords p.c s ++ slotWords p.a s

/-- The precise fault of a pair, if it has one (R50, R277). -/
def faultOf : Plan → Plan → Option Trap
  | .park _, _ => none
  | _, .park _ => none
  | .ask _, _ => none
  | _, .ask _ => none
  | .trap t, .trap u => some (if causeRank u.cause < causeRank t.cause then u else t)
  | .trap t, .commit _ _ _ => some t
  | .commit _ _ _, .trap u => some u
  | .commit _ _ _, .commit _ _ _ => none

/-- The plans of the two slots, and a fault at fetch or decode as the fault of the C slot. -/
def State.plansOf (s : State) (r : Except Trap Pair) : Plan × Plan := match r with
  | .error t => (.trap t, Plan.nop)
  | .ok p => pairPlans p s

/-- The ports of one copy of a task: a read port gives the elements that the leading copy's would (R380). -/
def copyPorts (lead c : Ctx) : Vector (Option Port) 4 := Vector.ofFn fun k => c.ports[k].map fun p =>
  if p.wr then p
  else match lead.ports[k] with
    | some q => if q.no = p.no ∧ q.pos = p.pos then { p with fifo := q.fifo } else p
    | none => p

/-- The task of a leading slot with the registers of one copy. -/
def Ctx.withCopy (lead c : Ctx) : Ctx :=
  { lead with
    g := c.g, v := c.v, pw := c.pw, lm := c.lm, rnd := c.rnd, cmask := c.cmask, sstat := c.sstat, wch := c.wch, ecxsel := c.ecxsel
    elsel := c.elsel, pc := c.pc, ports := copyPorts lead c }

/-- The precise fault that the pair at hand has on the registers of one copy (R381). -/
def State.copyFault (s : State) (n : Nat) (i : Fin 16) (c : Ctx) : Option Trap :=
  let t := { s.modCtxAt n i fun x => x.withCopy c with core := n, slot := i, popped := [] }
  let f := t.fetched
  let u := { t with pair := f.1 }
  faultOf (u.plansOf f.2).1 (u.plansOf f.2).2

/-- The record of the comparator for a leading slot. -/
def State.compareAt (s : State) (n : Nat) (i : Fin 16) : Option Compare := (s.coreAt n).cmp.find? fun e => e.slot == i
/-- The record removed. -/
def State.dropCompare (s : State) (n : Nat) (i : Fin 16) : State :=
  s.modCore n fun c => { c with cmp := c.cmp.filter fun e => e.slot != i }
/-- The record changed. -/
def State.setCompare (s : State) (n : Nat) (e : Compare) : State :=
  s.modCore n fun c => { c with cmp := c.cmp.filter (fun x => x.slot != e.slot) ++ [e] }

/-- Both copies take the same precise fault: one record, for the leading copy (R381). -/
def State.trapTwins (s : State) (n : Nat) (i : Fin 16) (t : TrapRec) : State :=
  ((s.takeTrap n i t).takeTrap n (trailSlot i) t).dropCompare n i

/-- STORE_COMPARE: the comparator decides on the pair that both copies have brought (R381). -/
def execStoreCompare (core slot : Nat) (s : State) : Host.Outcome State Fault Refusal :=
  let i : Fin 16 := Fin.ofNat 16 (slot % 8)
  .next (match s.compareAt core i with
    | some { slot := _, no := no, lead := some lw, trail := some tw, ok := false } =>
      let lead := s.ctxAt core i
      let pair := lw.headD 0
      match s.copyFault core i lead, s.copyFault core i (s.ctxAt core (trailSlot i)) with
      | none, none =>
        if lw = tw then
          (s.setCompare core { slot := i, no := no, lead := some lw, trail := some tw, ok := true }).setSt core i .ready
        else (s.dropCompare core i).mismatch core i lead.pc pair
      | some t, some u =>
        if t.cause = u.cause then
          s.trapTwins core i { cause := t.cause, late := false, pc := lead.pc, addr := t.addr, ranks := t.ranks, pair := pair }
        else (s.dropCompare core i).mismatch core i lead.pc pair
      | _, _ => (s.dropCompare core i).mismatch core i lead.pc pair
    | _ => s)

/-- Does a pair have an outside effect (R381)? -/
def State.pairEffect (s : State) (r : Except Trap Pair) : Bool := match r with
  | .ok q => slotEffect q.c s || slotEffect q.a s
  | .error _ => false

/-- The leading copy of an RDT task: a pair with an outside effect or a fault waits in the comparator; the rest
issues, where the load-value queue has room for all that the pair receives (R380). A record of an earlier pair, which the trailing copy has still to commit, holds it back. -/
def State.issueLead (s : State) (r : Except Trap Pair) : State :=
  let i := s.slot
  let p := s.plansOf r
  let rec_ := s.compareAt s.core i
  let ok := rec_.any fun e => e.ok && e.no == s.ctx.pairs
  let needs := (faultOf p.1 p.2).isSome || s.pairEffect r
  match p with
  | (.park st, _) => s.enter st
  | (_, .park st) => s.enter st
  | _ =>
    if needs && !ok then
      (if rec_.isSome then s else s.setCompare s.core { slot := i, no := s.ctx.pairs, lead := some (s.effectWords r), trail := none, ok := false }).enter
        .mem
    else
      let t := s.issueFetched r
      if decide (32 < t.lvUsed s.core i) then s.enter .mem
      else if ok && t.st == .faulted then match t.ctx.trap with
        | some tr => (t.takeTrap t.core (trailSlot i) tr).dropCompare t.core i
        | none => t
      else t

/-- The register fills that the leading copy took before the pair that the trailing copy is at come to the trailing copy too
(R15, R380; log 24). -/
def State.takeFills (s : State) : State :=
  let i := leadSlot s.slot
  let n := s.ctx.pairs
  let mine := fun (e : Fin 16 × Nat × List Word) => e.1 == i && decide (fillKey n 0 ≤ e.2.1) && decide (e.2.1 < fillKey (n + 1) 0)
  let s1 := s.modCtx fun c => (s.cur.lvq.filter mine).foldl (fun c e => c.fillFrom (Fin.ofNat 16 e.2.1) (e.2.2.headD 0)) c
  s1.modCur fun c => { c with lvq := c.lvq.filter fun e => !mine e }

/-- The trailing copy: it issues what its leading copy has issued, and brings its own side to the comparator. An outside effect
that the leading copy has not had is a mismatch, as a fault is (R381). -/
def State.issueTrail (s : State) (r : Except Trap Pair) : State :=
  let i := leadSlot s.slot
  let p := s.plansOf r
  let lead := s.ctxAt s.core i
  if s.ctx.pairs < lead.pairs then
    let matched := (s.compareAt s.core i).any fun e => e.ok && e.no == s.ctx.pairs
    if (faultOf p.1 p.2).isSome || (s.pairEffect r && !matched) then (s.enter .mem).mismatch s.core i lead.pc s.pair
    else
      let t := s.issueFetched r
      if matched && t.ctx.pairs != s.ctx.pairs then t.dropCompare s.core i else t
  else match s.compareAt s.core i with
    | some { slot := _, no := no, lead := some lw, trail := none, ok := false } => match p with
      | (.park .reg, _) => s.enter .reg
      | (_, .park .reg) => s.enter .reg
      | _ =>
        let t := (s.setCompare s.core { slot := i, no := no, lead := some lw, trail := some (s.effectWords r), ok := false }).enter .mem
        { t with agenda := .event (.storeCompare s.core i.val) :: t.agenda }
    | _ => s.enter .mem

/-! ### The issue of a slot -/

/-- The pair at the PC of a slot is fetched, and issues or parks. -/
def State.issueNow (s : State) (n : Nat) (i : Fin 16) : State :=
  let t : State := { s with core := n, slot := i, pair := 0, popped := [] }
  let f := t.fetched
  let u := { t.cacheFetch f with pair := f.1 }
  if !u.rdt then u.issueFetched f.2
  else if u.ctx.trail then u.takeFills.issueTrail f.2
  else u.issueLead f.2

/-- A slot at its issue opportunity: the fault that is pending is taken first (R51), then a stop (R280, R385); else its pair
issues or parks. -/
def State.issueSlot (s : State) (n : Nat) (i : Fin 16) : State :=
  let t : State := { s with core := n, slot := i, pair := 0, popped := [] }
  match t.ctx.late with
  | l :: rest => (t.modCtx fun c => { c with late := rest }).takeTrap n i l
  | [] => if (t.slotAt n i).stops then t.stopTask n i else s.issueNow n i

/-- Would the pair of a slot park? -/
def State.wouldPark (s : State) (n : Nat) (i : Fin 16) : Bool :=
  let t : State := { s with core := n, slot := i, pair := 0, popped := [] }
  let f := t.fetched
  match ({ t with pair := f.1 } : State).plansOf f.2 with
  | (.park _, _) | (_, .park _) => true
  | _ => false

/-- A parked slot tries its pair again. A stop that is pending waits until the park has ended (R385). -/
def State.retrySlot (s : State) (n : Nat) (i : Fin 16) : State :=
  let t := s.setSt n i .ready
  if (t.ctxAt n i).late.isEmpty && (t.slotAt n i).stops && t.wouldPark n i then s else t.issueSlot n i

/-- A pair that has asked a home is decided on its answer (R153, R187): at this instant, on what its objects, registries and
descriptors hold now. It has issued when it asked, so it uses no clk of the core here (R342). -/
def State.verdict (s : State) (n : Nat) (i : Fin 16) : State :=
  if (s.slotAt n i).st = .mem ∧ (s.ctxAt n i).answered.isSome then
    (((s.setSt n i .ready).issueNow n i).modSlot n i fun sl => { sl with lastIssue := (s.slotAt n i).lastIssue }).modCore n
      fun c => { c with rr := (s.coreAt n).rr }
  else s

/-- The home that a pair has asked has answered (R153, R187). A slot that waits for it no longer has left the pair. -/
def State.answer (s : State) (n : Nat) (i : Fin 16) (a : Access) (err : Bool) : State :=
  if (s.slotAt n i).st = .mem then (s.modCtxAt n i fun c => { c.dropAcc a.id with
    answered := some { err := if err then some Cause.uncorrectable else none, words := [] } }).verdict n i
  else s.modCtxAt n i (·.dropAcc a.id)

/-- ACCESS_COMPLETE: an outstanding access, or its next element, is performed at its home (R153, R156; log 6). `err` says that
the home found the data uncorrectable. An operation that a peer, a core or the matrix unit ends is left to its own event. -/
def execAccessComplete (core slot id : Nat) (err : Bool) (s : State) : Host.Outcome State Fault Refusal :=
  let i : Fin 16 := Fin.ofNat 16 slot
  .next (match (s.ctxAt core i).accs.find? fun a => a.id == id with
    | some a => match a.op with
      | .ask .home | .ask (.desc _ _) => s.answer core i a err
      | _ => s.complete core i a err
    | none => s)

/-! ### The choice among the slots of a core (R342) -/

/-- Has a slot been ready for 240 clk without issuing (R342)? -/
def Slot.starved (clk : Nat) (sl : Slot) : Bool := sl.st == .ready && (sl.urgent || decide (max sl.since sl.lastIssue + 240 ≤ clk))

/-- A parked slot that no outstanding access of its own holds: it goes on as soon as its pair can issue. -/
def Slot.retries (sl : Slot) : Bool :=
  (sl.st == .mem || sl.st == .reg || sl.st == .matrix || sl.st == .tileLock) && !(sl.ctx.accs.any (·.park))

/-- Is a slot eligible at a clk (R342)? One that has never issued is. -/
def Slot.eligible (clk : Nat) (sl : Slot) : Bool :=
  (sl.st == .ready || sl.retries) && (sl.lastIssue == 0 || decide (sl.lastIssue + 8 ≤ clk))

/-- The eligible slots of a core that have not been tried in this clk. -/
def State.candidates (s : State) (n : Nat) (tried : List (Fin 16)) : List (Fin 16) :=
  allSlots.filter fun i => !tried.contains i && (s.slotAt n i).eligible s.clk

/-- The slot that issues next: an urgent one, else the highest priority, round robin within it (R342). -/
def State.choose (s : State) (n : Nat) (tried : List (Fin 16)) : Option (Fin 16) :=
  match s.candidates n tried with
  | [] => none
  | [i] => some i
  | l => match l.find? fun i => (s.slotAt n i).starved s.clk with
    | some i => some i
    | none =>
      let prio := fun (i : Fin 16) => s.rcbPrio (s.ctxAt n i).rcb
      let top := (l.map prio).foldl max 0
      let m := l.filter fun i => prio i == top
      match tabGet (s.coreAt n).rr top with
      | none => m.head?
      | some j => (m.find? fun i => decide (j.val < i.val)).or m.head?

/-- One issue opportunity of a core: a slot whose pair would park enters its park state without using it, and another
eligible slot may issue (R342). A parked slot that still cannot issue stays as it was; one that asks a home has issued. -/
def State.issueCore (s : State) (n : Nat) : Nat → List (Fin 16) → State
  | 0, _ => s
  | k + 1, tried => match s.choose n tried with
    | none => s
    | some i =>
      let sl := s.slotAt n i
      let t := if sl.st = .ready then s.issueSlot n i else s.retrySlot n i
      let x := t.slotAt n i
      if x.st = .faulted ∨ x.st = .empty ∨ x.ctx.pairs ≠ sl.ctx.pairs ∨ x.ctx.accs.length ≠ sl.ctx.accs.length ∨ t.agenda ≠ s.agenda ∨
        (t.coreAt n).cmp ≠ (s.coreAt n).cmp ∨ (t.coreAt n).lvq ≠ (s.coreAt n).lvq then t
      else (if sl.st = .ready ∨ x.st ≠ sl.st then t else s).issueCore n k (i :: tried)

end Sys2Proof.Machine
end

