-- ==== Sys2Proof/Machine/Dispatch.lean ====
section
/-! DEFINITION. The meaning of every instruction: one arm, one direct call. -/

namespace Sys2Proof.Machine

/-- What an instruction does: a pair's slot alone in its pair, a context instruction in the running activation, or an
event. -/
def exec (i : Instr) (s : State) : Host.Outcome State Fault Refusal :=
  match i with
  | .cnop => Sys2Proof.Machine.execCnop s
  | .br off => Sys2Proof.Machine.execBr off s
  | .brWide lit => Sys2Proof.Machine.execBrWide lit s
  | .call off => Sys2Proof.Machine.execCall off s
  | .callWide lit => Sys2Proof.Machine.execCallWide lit s
  | .jmp a => Sys2Proof.Machine.execJmp a s
  | .callr a => Sys2Proof.Machine.execCallr a s
  | .ret => Sys2Proof.Machine.execRet s
  | .halt => Sys2Proof.Machine.execHalt s
  | .trapi code => Sys2Proof.Machine.execTrapi code s
  | .syscall code => Sys2Proof.Machine.execSyscall code s
  | .movl d lit => Sys2Proof.Machine.execMovl d lit s
  | .movh d lit => Sys2Proof.Machine.execMovh d lit s
  | .ld sz x d base off => Sys2Proof.Machine.execLd sz x d base off s
  | .ldWide sz x d base lit => Sys2Proof.Machine.execLdWide sz x d base lit s
  | .lds sz x d base off => Sys2Proof.Machine.execLds sz x d base off s
  | .ldsWide sz x d base lit => Sys2Proof.Machine.execLdsWide sz x d base lit s
  | .st sz x d base off => Sys2Proof.Machine.execSt sz x d base off s
  | .stWide sz x d base lit => Sys2Proof.Machine.execStWide sz x d base lit s
  | .ldv x d base off => Sys2Proof.Machine.execLdv x d base off s
  | .ldvWide x d base lit => Sys2Proof.Machine.execLdvWide x d base lit s
  | .stv x d base off => Sys2Proof.Machine.execStv x d base off s
  | .stvWide x d base lit => Sys2Proof.Machine.execStvWide x d base lit s
  | .ldvs e x d a b => Sys2Proof.Machine.execLdvs e x d a b s
  | .stvs e x d a b => Sys2Proof.Machine.execStvs e x d a b s
  | .vgath e x d a b => Sys2Proof.Machine.execVgath e x d a b s
  | .vscat e x d a b => Sys2Proof.Machine.execVscat e x d a b s
  | .aadd sz sc o d addr v => Sys2Proof.Machine.execAadd sz sc o d addr v s
  | .aand sz sc o d addr v => Sys2Proof.Machine.execAand sz sc o d addr v s
  | .aor sz sc o d addr v => Sys2Proof.Machine.execAor sz sc o d addr v s
  | .axor sz sc o d addr v => Sys2Proof.Machine.execAxor sz sc o d addr v s
  | .amin sz sc o d addr v => Sys2Proof.Machine.execAmin sz sc o d addr v s
  | .amax sz sc o d addr v => Sys2Proof.Machine.execAmax sz sc o d addr v s
  | .aswp sz sc o d addr v => Sys2Proof.Machine.execAswp sz sc o d addr v s
  | .acas sz sc o d addr v => Sys2Proof.Machine.execAcas sz sc o d addr v s
  | .afadd sc o d addr v => Sys2Proof.Machine.execAfadd sc o d addr v s
  | .fence sc o => Sys2Proof.Machine.execFence sc o s
  | .sbind d a => Sys2Proof.Machine.execSbind d a s
  | .sunbind d => Sys2Proof.Machine.execSunbind d s
  | .sstat d a => Sys2Proof.Machine.execSstat d a s
  | .tld td a b => Sys2Proof.Machine.execTld td a b s
  | .tldBd td a b => Sys2Proof.Machine.execTldBd td a b s
  | .tst td a b => Sys2Proof.Machine.execTst td a b s
  | .tstBd td a b => Sys2Proof.Machine.execTstBd td a b s
  | .tplane p d a b => Sys2Proof.Machine.execTplane p d a b s
  | .regput a b => Sys2Proof.Machine.execRegput a b s
  | .emptyr d => Sys2Proof.Machine.execEmptyr d s
  | .obnew k d a b => Sys2Proof.Machine.execObnew k d a b s
  | .oblige a => Sys2Proof.Machine.execOblige a s
  | .signal a b => Sys2Proof.Machine.execSignal a b s
  | .arrive a => Sys2Proof.Machine.execArrive a s
  | .wait d a b => Sys2Proof.Machine.execWait d a b s
  | .waitSh d a b => Sys2Proof.Machine.execWaitSh d a b s
  | .waita d a => Sys2Proof.Machine.execWaita d a s
  | .xfer a b => Sys2Proof.Machine.execXfer a b s
  | .obqry d a => Sys2Proof.Machine.execObqry d a s
  | .rnkwin d b => Sys2Proof.Machine.execRnkwin d b s
  | .poison a code => Sys2Proof.Machine.execPoison a code s
  | .tlwait e b => Sys2Proof.Machine.execTlwait e b s
  | .cpyqWt a => Sys2Proof.Machine.execCpyqWt a s
  | .cpyqBz p a => Sys2Proof.Machine.execCpyqBz p a s
  | .wfm d b => Sys2Proof.Machine.execWfm d b s
  | .mbrd d b => Sys2Proof.Machine.execMbrd d b s
  | .send n a b => Sys2Proof.Machine.execSend n a b s
  | .sendOb n d a b => Sys2Proof.Machine.execSendOb n d a b s
  | .migr a => Sys2Proof.Machine.execMigr a s
  | .shelve d a b => Sys2Proof.Machine.execShelve d a b s
  | .wcopen d a b => Sys2Proof.Machine.execWcopen d a b s
  | .wcsel a => Sys2Proof.Machine.execWcsel a s
  | .wcrel d a => Sys2Proof.Machine.execWcrel d a s
  | .wcrelRp d a b => Sys2Proof.Machine.execWcrelRp d a b s
  | .wcclose a => Sys2Proof.Machine.execWcclose a s
  | .mcst n a b => Sys2Proof.Machine.execMcst n a b s
  | .mcrel d a => Sys2Proof.Machine.execMcrel d a s
  | .mcrelRp d a b => Sys2Proof.Machine.execMcrelRp d a b s
  | .redput op ign d a b => Sys2Proof.Machine.execRedput op ign d a b s
  | .iordWt a => Sys2Proof.Machine.execIordWt a s
  | .iordBz p a => Sys2Proof.Machine.execIordBz p a s
  | .scnext q d => Sys2Proof.Machine.execScnext q d s
  | .swdecl d a => Sys2Proof.Machine.execSwdecl d a s
  | .swbind d a b => Sys2Proof.Machine.execSwbind d a b s
  | .swrun a b => Sys2Proof.Machine.execSwrun a b s
  | .swwake a b => Sys2Proof.Machine.execSwwake a b s
  | .swstat d a => Sys2Proof.Machine.execSwstat d a s
  | .crd d r => Sys2Proof.Machine.execCrd d r s
  | .cwr d r => Sys2Proof.Machine.execCwr d r s
  | .ctxrd d a b => Sys2Proof.Machine.execCtxrd d a b s
  | .ctxwr d a b => Sys2Proof.Machine.execCtxwr d a b s
  | .resume a => Sys2Proof.Machine.execResume a s
  | .kill a => Sys2Proof.Machine.execKill a s
  | .tlbinv a b => Sys2Proof.Machine.execTlbinv a b s
  | .rdtime d => Sys2Proof.Machine.execRdtime d s
  | .rdcyc d => Sys2Proof.Machine.execRdcyc d s
  | .pcnt d a => Sys2Proof.Machine.execPcnt d a s
  | .anop => Sys2Proof.Machine.execAnop s
  | .add d a b => Sys2Proof.Machine.execAdd d a b s
  | .sub d a b => Sys2Proof.Machine.execSub d a b s
  | .mul d a b => Sys2Proof.Machine.execMul d a b s
  | .mulh d a b => Sys2Proof.Machine.execMulh d a b s
  | .mulhu d a b => Sys2Proof.Machine.execMulhu d a b s
  | .div d a b => Sys2Proof.Machine.execDiv d a b s
  | .divu d a b => Sys2Proof.Machine.execDivu d a b s
  | .rem d a b => Sys2Proof.Machine.execRem d a b s
  | .remu d a b => Sys2Proof.Machine.execRemu d a b s
  | .and d a b => Sys2Proof.Machine.execAnd d a b s
  | .or d a b => Sys2Proof.Machine.execOr d a b s
  | .xor d a b => Sys2Proof.Machine.execXor d a b s
  | .andn d a b => Sys2Proof.Machine.execAndn d a b s
  | .shl d a b => Sys2Proof.Machine.execShl d a b s
  | .shr d a b => Sys2Proof.Machine.execShr d a b s
  | .sra d a b => Sys2Proof.Machine.execSra d a b s
  | .min d a b => Sys2Proof.Machine.execMin d a b s
  | .max d a b => Sys2Proof.Machine.execMax d a b s
  | .minu d a b => Sys2Proof.Machine.execMinu d a b s
  | .maxu d a b => Sys2Proof.Machine.execMaxu d a b s
  | .mov d a => Sys2Proof.Machine.execMov d a s
  | .addi d a imm => Sys2Proof.Machine.execAddi d a imm s
  | .andi d a imm => Sys2Proof.Machine.execAndi d a imm s
  | .ori d a imm => Sys2Proof.Machine.execOri d a imm s
  | .xori d a imm => Sys2Proof.Machine.execXori d a imm s
  | .shli d a sh => Sys2Proof.Machine.execShli d a sh s
  | .shri d a sh => Sys2Proof.Machine.execShri d a sh s
  | .srai d a sh => Sys2Proof.Machine.execSrai d a sh s
  | .movi d imm => Sys2Proof.Machine.execMovi d imm s
  | .lea d a b q imm => Sys2Proof.Machine.execLea d a b q imm s
  | .cmp c d a b => Sys2Proof.Machine.execCmp c d a b s
  | .cmpi c d a imm => Sys2Proof.Machine.execCmpi c d a imm s
  | .clz d a => Sys2Proof.Machine.execClz d a s
  | .ctz d a => Sys2Proof.Machine.execCtz d a s
  | .popc d a => Sys2Proof.Machine.execPopc d a s
  | .sext d a w => Sys2Proof.Machine.execSext d a w s
  | .zext d a w => Sys2Proof.Machine.execZext d a w s
  | .bfx sx d a q n => Sys2Proof.Machine.execBfx sx d a q n s
  | .bfi d a q n => Sys2Proof.Machine.execBfi d a q n s
  | .sel d a b p => Sys2Proof.Machine.execSel d a b p s
  | .pand d a b => Sys2Proof.Machine.execPand d a b s
  | .por d a b => Sys2Proof.Machine.execPor d a b s
  | .pxor d a b => Sys2Proof.Machine.execPxor d a b s
  | .pnot d a => Sys2Proof.Machine.execPnot d a s
  | .pget d => Sys2Proof.Machine.execPget d s
  | .pset a => Sys2Proof.Machine.execPset a s
  | .lmget d => Sys2Proof.Machine.execLmget d s
  | .lmset a => Sys2Proof.Machine.execLmset a s
  | .fadd f d a b => Sys2Proof.Machine.execFadd f d a b s
  | .fsub f d a b => Sys2Proof.Machine.execFsub f d a b s
  | .fmul f d a b => Sys2Proof.Machine.execFmul f d a b s
  | .fmin f d a b => Sys2Proof.Machine.execFmin f d a b s
  | .fmax f d a b => Sys2Proof.Machine.execFmax f d a b s
  | .fdiv f d a b => Sys2Proof.Machine.execFdiv f d a b s
  | .fsqrt f d a => Sys2Proof.Machine.execFsqrt f d a s
  | .fsgn f m d a b => Sys2Proof.Machine.execFsgn f m d a b s
  | .fclass f d a => Sys2Proof.Machine.execFclass f d a s
  | .ffma f negP negA d a b c => Sys2Proof.Machine.execFfma f negP negA d a b c s
  | .fcmp f c d a b => Sys2Proof.Machine.execFcmp f c d a b s
  | .fcvt f c d a => Sys2Proof.Machine.execFcvt f c d a s
  | .vadd k m vd va vb => Sys2Proof.Machine.execVadd k m vd va vb s
  | .vsub k m vd va vb => Sys2Proof.Machine.execVsub k m vd va vb s
  | .vmul k m vd va vb => Sys2Proof.Machine.execVmul k m vd va vb s
  | .vmin k m vd va vb => Sys2Proof.Machine.execVmin k m vd va vb s
  | .vmax k m vd va vb => Sys2Proof.Machine.execVmax k m vd va vb s
  | .vabs k m vd va => Sys2Proof.Machine.execVabs k m vd va s
  | .vneg k m vd va => Sys2Proof.Machine.execVneg k m vd va s
  | .vand e m vd va vb => Sys2Proof.Machine.execVand e m vd va vb s
  | .vor e m vd va vb => Sys2Proof.Machine.execVor e m vd va vb s
  | .vxor e m vd va vb => Sys2Proof.Machine.execVxor e m vd va vb s
  | .vshl e m vd va vb => Sys2Proof.Machine.execVshl e m vd va vb s
  | .vshr e m vd va vb => Sys2Proof.Machine.execVshr e m vd va vb s
  | .vsra e m vd va vb => Sys2Proof.Machine.execVsra e m vd va vb s
  | .vsel e m vd va vb vc => Sys2Proof.Machine.execVsel e m vd va vb vc s
  | .vmov e m vd va => Sys2Proof.Machine.execVmov e m vd va s
  | .vfma m vd va vb vc => Sys2Proof.Machine.execVfma m vd va vb vc s
  | .vcmp op m va vb => Sys2Proof.Machine.execVcmp op m va vb s
  | .vbcast e vd g => Sys2Proof.Machine.execVbcast e vd g s
  | .vext e g vd lane => Sys2Proof.Machine.execVext e g vd lane s
  | .vins e vd g lane => Sys2Proof.Machine.execVins e vd g lane s
  | .vperm e m vd va vb vc => Sys2Proof.Machine.execVperm e m vd va vb vc s
  | .vred op k m vd va => Sys2Proof.Machine.execVred op k m vd va s
  | .vamax ign m vd va => Sys2Proof.Machine.execVamax ign m vd va s
  | .vcvt c vd va x => Sys2Proof.Machine.execVcvt c vd va x s
  | .vscale m vd va vb => Sys2Proof.Machine.execVscale m vd va vb s
  | .vdot fl vd va vb vc => Sys2Proof.Machine.execVdot fl vd va vb vc s
  | .vrcp vd va => Sys2Proof.Machine.execVrcp vd va s
  | .vexp2 vd va => Sys2Proof.Machine.execVexp2 vd va s
  | .tcfg td a => Sys2Proof.Machine.execTcfg td a s
  | .tzero td => Sys2Proof.Machine.execTzero td s
  | .trel td => Sys2Proof.Machine.execTrel td s
  | .mfmt a => Sys2Proof.Machine.execMfmt a s
  | .mma td a b => Sys2Proof.Machine.execMma td a b s
  | .mmai td a b => Sys2Proof.Machine.execMmai td a b s
  | .trowr v td b => Sys2Proof.Machine.execTrowr v td b s
  | .troww td v b => Sys2Proof.Machine.execTroww td v b s
  | .tcolr v td b => Sys2Proof.Machine.execTcolr v td b s
  | .tcolw td v b => Sys2Proof.Machine.execTcolw td v b s
  | .tstat a td => Sys2Proof.Machine.execTstat a td s
  | .ttrans td ta => Sys2Proof.Machine.execTtrans td ta s
  | .ctxCnop => Sys2Proof.Machine.execCtxCnop s
  | .cmov d o => Sys2Proof.Machine.execCmov d o s
  | .cidx d => Sys2Proof.Machine.execCidx d s
  | .cget d q => Sys2Proof.Machine.execCget d q s
  | .cput q a => Sys2Proof.Machine.execCput q a s
  | .cadd d a o => Sys2Proof.Machine.execCadd d a o s
  | .csub d a o => Sys2Proof.Machine.execCsub d a o s
  | .cmul d a o => Sys2Proof.Machine.execCmul d a o s
  | .cand d a o => Sys2Proof.Machine.execCand d a o s
  | .cor d a o => Sys2Proof.Machine.execCor d a o s
  | .cshl d a o => Sys2Proof.Machine.execCshl d a o s
  | .cshr d a o => Sys2Proof.Machine.execCshr d a o s
  | .cmin d a o => Sys2Proof.Machine.execCmin d a o s
  | .cmax d a o => Sys2Proof.Machine.execCmax d a o s
  | .cfadd d a o => Sys2Proof.Machine.execCfadd d a o s
  | .cfmul d a o => Sys2Proof.Machine.execCfmul d a o s
  | .cfmax d a o => Sys2Proof.Machine.execCfmax d a o s
  | .ccmp c a o => Sys2Proof.Machine.execCcmp c a o s
  | .cjmp c t => Sys2Proof.Machine.execCjmp c t s
  | .cnb d o => Sys2Proof.Machine.execCnb d o s
  | .cin d => Sys2Proof.Machine.execCin d s
  | .cout a => Sys2Proof.Machine.execCout a s
  | .cwe a t => Sys2Proof.Machine.execCwe a t s
  | .cws q => Sys2Proof.Machine.execCws q s
  | .cww o => Sys2Proof.Machine.execCww o s
  | .csig k => Sys2Proof.Machine.execCsig k s
  | .cdone => Sys2Proof.Machine.execCdone s
  | .cflt code => Sys2Proof.Machine.execCflt code s
  | .accessComplete core slot id err => Sys2Proof.Machine.execAccessComplete core slot id err s
  | .lateFault core slot => Sys2Proof.Machine.execLateFault core slot s
  | .registerFill core n => Sys2Proof.Machine.execRegisterFill core n s
  | .streamElementFetch core slot port => Sys2Proof.Machine.execStreamElementFetch core slot port s
  | .streamDrain core slot port => Sys2Proof.Machine.execStreamDrain core slot port s
  | .matrixRequestStart cluster => Sys2Proof.Machine.execMatrixRequestStart cluster s
  | .matrixResultWrite core err => Sys2Proof.Machine.execMatrixResultWrite core err s
  | .engineOperationStart core => Sys2Proof.Machine.execEngineOperationStart core s
  | .engineOperationComplete core n io => Sys2Proof.Machine.execEngineOperationComplete core n io s
  | .waitShelveTimeout core slot => Sys2Proof.Machine.execWaitShelveTimeout core slot s
  | .orphanTimeout n => Sys2Proof.Machine.execOrphanTimeout n s
  | .slotClaim core => Sys2Proof.Machine.execSlotClaim core s
  | .migrationArrival n => Sys2Proof.Machine.execMigrationArrival n s
  | .starvationGuard core slot => Sys2Proof.Machine.execStarvationGuard core slot s
  | .preEmption core slot => Sys2Proof.Machine.execPreEmption core slot s
  | .preEmptionSave core slot => Sys2Proof.Machine.execPreEmptionSave core slot s
  | .replyCatcher core n id err => Sys2Proof.Machine.execReplyCatcher core n id err s
  | .trapRecord core slot => Sys2Proof.Machine.execTrapRecord core slot s
  | .breakpoint core slot => Sys2Proof.Machine.execBreakpoint core slot s
  | .storeCompare core slot => Sys2Proof.Machine.execStoreCompare core slot s
  | .containment core => Sys2Proof.Machine.execContainment core s
  | .pageWalk cluster root va => Sys2Proof.Machine.execPageWalk cluster root va s
  | .wsfrzWrite die b => Sys2Proof.Machine.execWsfrzWrite die b s
  | .wsfrzCopyUpdate core die => Sys2Proof.Machine.execWsfrzCopyUpdate core die s
  | .sampctlWrite v => Sys2Proof.Machine.execSampctlWrite v s
  | .pcntclr core => Sys2Proof.Machine.execPcntclr core s
  | .registerWrite w => Sys2Proof.Machine.execRegisterWrite w s
  | .samplingPulse => Sys2Proof.Machine.execSamplingPulse s
  | .weightStoreRefresh die bank => Sys2Proof.Machine.execWeightStoreRefresh die bank s
  | .dramRefresh die chan bank => Sys2Proof.Machine.execDramRefresh die chan bank s
  | .temperatureChange die layer celsius => Sys2Proof.Machine.execTemperatureChange die layer celsius s
  | .overheat die b => Sys2Proof.Machine.execOverheat die b s
  | .scrub key f => Sys2Proof.Machine.execScrub key f s
  | .powerGrant die amount => Sys2Proof.Machine.execPowerGrant die amount s
  | .tailWrite q v => Sys2Proof.Machine.execTailWrite q v s
  | .queueBind => Sys2Proof.Machine.execQueueBind s
  | .queueUnbind n => Sys2Proof.Machine.execQueueUnbind n s
  | .nopEntry q => Sys2Proof.Machine.execNopEntry q s
  | .launchEntry q => Sys2Proof.Machine.execLaunchEntry q s
  | .waitobj q => Sys2Proof.Machine.execWaitobj q s
  | .signalobjOblige q => Sys2Proof.Machine.execSignalobjOblige q s
  | .signalobjSignal q => Sys2Proof.Machine.execSignalobjSignal q s
  | .signalobjPoison q => Sys2Proof.Machine.execSignalobjPoison q s
  | .copyEntry q => Sys2Proof.Machine.execCopyEntry q s
  | .jumpEntry q => Sys2Proof.Machine.execJumpEntry q s
  | .callEntry q => Sys2Proof.Machine.execCallEntry q s
  | .returnEntry q => Sys2Proof.Machine.execReturnEntry q s
  | .skipif q => Sys2Proof.Machine.execSkipif q s
  | .fenceEntry q => Sys2Proof.Machine.execFenceEntry q s
  | .debugHalt q => Sys2Proof.Machine.execDebugHalt q s
  | .debugRead q => Sys2Proof.Machine.execDebugRead q s
  | .debugWrite q => Sys2Proof.Machine.execDebugWrite q s
  | .debugSetbp q => Sys2Proof.Machine.execDebugSetbp q s
  | .debugClrbp q => Sys2Proof.Machine.execDebugClrbp q s
  | .debugResume q => Sys2Proof.Machine.execDebugResume q s
  | .completionRecord q => Sys2Proof.Machine.execCompletionRecord q s
  | .hostMemoryAccess addr wr data => Sys2Proof.Machine.execHostMemoryAccess addr wr data s
  | .expanderLinkDown port => Sys2Proof.Machine.execExpanderLinkDown port s
  | .partFailure p => Sys2Proof.Machine.execPartFailure p s
  | .heartbeat link => Sys2Proof.Machine.execHeartbeat link s
  | .flitResend link => Sys2Proof.Machine.execFlitResend link s
  | .linkDown link => Sys2Proof.Machine.execLinkDown link s
  | .linkRetrain link => Sys2Proof.Machine.execLinkRetrain link s
  | .packetExpiry n => Sys2Proof.Machine.execPacketExpiry n s
  | .pktWrite p => Sys2Proof.Machine.execPktWrite p s
  | .pktMwrite p => Sys2Proof.Machine.execPktMwrite p s
  | .pktRead p => Sys2Proof.Machine.execPktRead p s
  | .pktRdata p => Sys2Proof.Machine.execPktRdata p s
  | .pktAtom p => Sys2Proof.Machine.execPktAtom p s
  | .pktAdata p => Sys2Proof.Machine.execPktAdata p s
  | .pktFlag p => Sys2Proof.Machine.execPktFlag p s
  | .pktMflag p => Sys2Proof.Machine.execPktMflag p s
  | .pktOpen p => Sys2Proof.Machine.execPktOpen p s
  | .pktOpenr p => Sys2Proof.Machine.execPktOpenr p s
  | .pktShort p => Sys2Proof.Machine.execPktShort p s
  | .pktRefuse p => Sys2Proof.Machine.execPktRefuse p s
  | .pktReport p => Sys2Proof.Machine.execPktReport p s
  | .pktBusy p => Sys2Proof.Machine.execPktBusy p s
  | .flagResend n => Sys2Proof.Machine.execFlagResend n s
  | .holdTimeout die ix => Sys2Proof.Machine.execHoldTimeout die ix s
  | .shortResend die ix => Sys2Proof.Machine.execShortResend die ix s
  | .reportTimeout n => Sys2Proof.Machine.execReportTimeout n s
  | .groupDecision p => Sys2Proof.Machine.execGroupDecision p s
  | .groupReportTimeout n => Sys2Proof.Machine.execGroupReportTimeout n s
  | .replayLogRetire die => Sys2Proof.Machine.execReplayLogRetire die s
  | .fabricReadResend core slot id => Sys2Proof.Machine.execFabricReadResend core slot id s
  | .atomicTimeout core slot id => Sys2Proof.Machine.execAtomicTimeout core slot id s
  | .redputPacket p => Sys2Proof.Machine.execRedputPacket p s
  | .redres p => Sys2Proof.Machine.execRedres p s
  | .reductionTimeout n => Sys2Proof.Machine.execReductionTimeout n s
  | .reductionSlotFree n => Sys2Proof.Machine.execReductionSlotFree n s
  | .silent p => Sys2Proof.Machine.execSilent p s
  | .pktDead p => Sys2Proof.Machine.execPktDead p s
  | .sweepStart cluster h => Sys2Proof.Machine.execSweepStart cluster h s
  | .bandVisit cluster => Sys2Proof.Machine.execBandVisit cluster s
  | .idleWake cluster h => Sys2Proof.Machine.execIdleWake cluster h s
  | .engineSwitch cluster h => Sys2Proof.Machine.execEngineSwitch cluster h s
  | .coldReset b => Sys2Proof.Machine.execColdReset b s
  | .warmReset => Sys2Proof.Machine.execWarmReset s
  | .clusterReset cluster selfTestPassed => Sys2Proof.Machine.execClusterReset cluster selfTestPassed s
  | .coreReset core => Sys2Proof.Machine.execCoreReset core s
  | .imageUpload im => Sys2Proof.Machine.execImageUpload im s
  | .attestationRequest nonce => Sys2Proof.Machine.execAttestationRequest nonce s
  | .encodingFault => Sys2Proof.Machine.execEncodingFault s
  | .fetchFault uncorrectable => Sys2Proof.Machine.execFetchFault uncorrectable s
  | .unassignedPacketType p => Sys2Proof.Machine.execUnassignedPacketType p s
  | .warmResetComplete => Sys2Proof.Machine.execWarmResetComplete s

end Sys2Proof.Machine
end

