-- ==== Sys2Proof/Machine/Step.lean ====
section
/-! DEFINITION. One step of the device: an event, or one issue opportunity of one core (19, R342; logs 2, 3), and the
placing of a program's first instruction (log 8). -/

namespace Sys2Proof.Machine

/-- A slot whose pair has issued is ready again (R11). -/
def Slot.again (clk : Nat) (sl : Slot) : Slot := if sl.st = .issued then { sl with st := .ready, since := clk } else sl

/-- The clk goes on before anything happens, the pairs of the last issue are over, and packets that have grown old are
discarded (R3, R11, R351; log 3). -/
def State.tick (s : State) : State :=
  let clk := s.clk + 1 + Config.stall s.ticks
  { s with
    clk := clk, ticks := s.ticks + 1, net := s.purged clk
    cores := s.cores.map fun e => (e.1, { e.2 with slots := e.2.slots.map (Slot.again clk) }) }

/-- The move that comes next, and the device with it taken off the agenda (log 2). -/
def State.next (s : State) : Move × State := match s.agenda with
  | [] => (.issue s.focus, s)
  | m :: rest => (m, { s with agenda := rest })

/-- What a move does: an event takes place, a core has its issue opportunity, or an answer decides on a pair. -/
def State.perform (s : State) : Move → Host.Outcome State Fault Refusal
  | .event i => exec i s
  | .issue n => .next (s.issueCore n 17 [])
  | .decide n i => .next (s.verdict n i)

/-- One step: the next move, whose changes to registries and breakpoint words are written through to the context areas
(R186). -/
def step (s : State) : Host.Outcome State Fault Refusal :=
  let m := s.tick.next
  match m.2.perform m.1 with
  | .next t => .next (t.writeThrough m.2)
  | .fault f => .fault f
  | .refused r => .refused r

/-! ### The first instruction (log 8) -/

/-- The RCB of the program's region. -/
def bootRcb : Nat := 0x10000
/-- The page-table root: the tables of L0, L1 and L2 stand 4 KiB apart. -/
def bootRoot : Nat := 0x20000
/-- The address of the program's first pair, mapped to itself. -/
def bootPc : Nat := 0x40000

/-- A region with user-mode tasks on core 0, one page of 1 GiB that may be written and fetched from, and code bounds
around the first pair. -/
def State.bootMem (s : State) (pair : Nat) : List Host.Cell :=
  let w := fun (m : List Host.Cell) (e : Nat × Nat) => { s with mem := m }.put e.1 8 e.2
  [(bootRcb + 0x08, 16 * 2 ^ 40), (bootRcb + 0x10, bootPc), (bootRcb + 0x18, bootPc + 0x1000), (bootRcb + 0x20, bootRoot),
    (bootRcb + 0x58, 2 ^ 16), (bootRoot, bootRoot + 0x1000 + 1), (bootRoot + 0x1000, bootRoot + 0x2000 + 1),
    (bootRoot + 0x2000, 0xF), (bootPc, pair)].foldl w s.mem

/-- The task that runs the program: g0 to g9 are zero and Full, and every other register is as R31 leaves it. -/
def bootTask : Ctx := { Ctx.init with
  tid := 1, rcb := BitVec.ofNat 64 bootRcb, pc := BitVec.ofNat 64 bootPc
  g := Vector.ofFn fun d => if d.val < 10 then { GReg.init with f := true, d := false } else GReg.init }

/-- The device with a task about to fetch this pair on slot 0 of core 0. -/
def State.withPair (s : State) (pair : Nat) : State :=
  let c := s.coreAt 0
  { s with
    mem := s.bootMem pair, poison := [], agenda := [], focus := 0
    cores := tabPut s.cores 0 { c with
      icache := []
      slots := c.slots.set 0 { c.slots[0] with st := .ready, lastIssue := 0, ctx := bootTask } } }

/-- The device with a running activation whose next instruction stands on the agenda. -/
def State.withContext (s : State) (i : Instr) : State :=
  { s with act := { Act.init with status := .running }, agenda := [.event i] }

/-- The instruction with these bits stored where the device fetches next (log 8): a C word or a C word with its literal as
a pair, an A word beside CNOP, a context word as the instruction at hand of an activation. -/
def State.withFetchWord (s : State) (nbits w : Nat) : State :=
  if 32 < nbits then s.withPair w
  else match classifyWord w with
    | .a => s.withPair (w * 2 ^ 32)
    | .x => match decodeX w with
      | some i => s.withContext i
      | none => s
    | _ => s.withPair w

end Sys2Proof.Machine
end

