-- ==== Sys2Proof/Safety.lean ====
section
/-! DEFINITION. What claims are stated in: a step that answers a next state, a sound state, runs, and the readings of
memory, registers and tasks by which effects and frames are told. -/

namespace Sys2Proof.Machine

/-- The memory of a state is in its canonical form (log 1). -/
def State.Sound (s : State) : Prop := memWf s.mem = true

/-- A state from which `n` steps are all answered by a next state. -/
def State.Safe : Nat → State → Prop
  | 0, _ => True
  | n + 1, s => ∃ t, step s = .next t ∧ t.Safe n

/-- Register `g` of the issuing task gives the value `v` to a pair that reads it, and sets the flags `fl`: it is Full, or
it is Dead, which reads as zero and sets DEADRD. No stream port is bound to it, and no fill from outside the thread is still
to be read, whose first read is an acquire (R13, R14, R16, R284). -/
def State.Reads (s : State) (g : GIx) (v : Word) (fl : Flags) : Prop :=
  s.ctx.portOf g = none ∧ s.ctx.extern.getLsbD g.val = false ∧
    ((s.ctx.g[g].f = true ∧ s.ctx.g[g].d = false ∧ s.ctx.g[g].val = v ∧ fl = 0) ∨
      (s.ctx.g[g].d = true ∧ v = 0 ∧ fl = Flag.deadrd))

/-- Register `v` of the issuing task gives the value `x`, and sets the flags `fl` (R13, R14). -/
def State.ReadsV (s : State) (v : VIx) (x : VWord) (fl : Flags) : Prop :=
  (s.ctx.v[v].f = true ∧ s.ctx.v[v].d = false ∧ s.ctx.v[v].val = x ∧ fl = 0) ∨
    (s.ctx.v[v].d = true ∧ x = 0 ∧ fl = Flag.deadrd)

/-- Register `g` of the issuing task can take a result: it is not Pending, and no stream port is bound to it (R14,
R16). -/
def State.Takes (s : State) (g : GIx) : Prop := s.ctx.portOf g = none ∧ s.ctx.g[g].pending = false

/-- Register `v` of the issuing task can take a result (R14). -/
def State.TakesV (s : State) (v : VIx) : Prop := s.ctx.v[v].pending = false

/-! ### A pair that issues -/

/-- No register that a slot names holds its pair back or stops it (R14, R16): the sources `gs` and `vs`, the destinations
`gd` and `vd`. -/
def State.Open (s : State) (gs : List GIx) (vs : List VIx) (gd : List GIx) (vd : List VIx) : Prop :=
  ∀ x ∈ s.gates gs vs gd vd, x = Gate.ok

/-- The state after a pair that issues, whose one instruction reads `gs` and `vs` and has the effect `f`: the slot takes
its issue, the sources are read, the effect happens, and the PC goes to the next pair (R41, R47). -/
def State.issues (s : State) (gs : List GIx) (vs : List VIx) (f : State → State) : State :=
  (f (s.commitStart.readAll gs vs)).advance

/-- The state after a pair that issues from state 1 and changes its own task by `f` and nothing else: the slot is in
state 2, the counters of issued pairs go up, and the PC is at the next pair (R11, R41, R275, R342). -/
def State.issued (s : State) (f : Ctx → Ctx) : State :=
  s.modCur fun c => { c with
    pcnt2 := c.pcnt2 + 1
    rr := tabPut c.rr (s.rcbPrio s.ctx.rcb) s.slot
    slots := c.slots.set s.slot { s.slotAt s.core s.slot with
      st := .issued, since := s.clk, urgent := false, lastIssue := s.clk
      ctx := f { s.ctx with
        pcnt0 := s.ctx.pcnt0 + 1, pairs := s.ctx.pairs + 1, bpSkip := none, answered := none, settleDue := false
        pc := s.ctx.pc + 8 } } }

/-- Instruction `i`, alone in its pair, reads the registers `gs` and `vs`, writes `gd` and `vd`, and has the effect `f`:
where every register lets it, the pair issues; where one awaits a value, the slot parks in state 4 and nothing else
happens; else a port used in the wrong direction or past its end is a STREAM fault (R14, R16, R47). -/
def Issues (i : Instr) (s : State) (gs : List GIx) (vs : List VIx) (gd : List GIx) (vd : List VIx) (f : State → State) :
    Prop :=
  (s.Open gs vs gd vd → exec i s = .next (s.issues gs vs f)) ∧
    (anyPark (s.gates gs vs gd vd) = true → exec i s = .next (s.enter .reg)) ∧
      ∀ t, anyPark (s.gates gs vs gd vd) = false → firstTrap (s.gates gs vs gd vd) = some t →
        exec i s = .next (s.trapNow t)

/-- As `Issues`, for an instruction that has a part `g` of its effect after its pair has committed. -/
def IssuesThen (i : Instr) (s : State) (gs : List GIx) (vs : List VIx) (gd : List GIx) (vd : List VIx) (f g : State → State) :
    Prop :=
  (s.Open gs vs gd vd → exec i s = .next (g (s.issues gs vs f))) ∧
    (anyPark (s.gates gs vs gd vd) = true → exec i s = .next (s.enter .reg)) ∧
      ∀ t, anyPark (s.gates gs vs gd vd) = false → firstTrap (s.gates gs vs gd vd) = some t →
        exec i s = .next (s.trapNow t)

/-- The pair takes the precise fault `t` (R50, R276). -/
def Traps (i : Instr) (s : State) (t : Trap) : Prop := exec i s = .next (s.trapNow t)

/-- The pair does not issue: its slot is in the state `st`, and nothing else happens (R11, R47). -/
def Parks (i : Instr) (s : State) (st : SlotSt) : Prop := exec i s = .next (s.enter st)

/-- An instruction on g registers with the sources `gs` and the destination `d`: `r` is its result and the status bits
it sets. -/
def IssuesG (i : Instr) (s : State) (gs : List GIx) (d : GIx) (r : Word × Flags) : Prop :=
  Issues i s gs [] [d] [] fun t => (t.raise r.2).writeG d r.1

/-- An instruction on v registers with the sources `vs` and the destination `d`. Under merge (`m`) the pair also waits
for `d`, whose lanes that LM masks off stay (R123). -/
def IssuesV (i : Instr) (s : State) (m : Bool) (vs : List VIx) (d : VIx) (r : VWord × Flags) : Prop :=
  ((m && s.ctx.v[d].waits) = true → exec i s = .next (s.enter .reg)) ∧
    ((m && s.ctx.v[d].waits) = false → Issues i s [] vs [] [d] fun t => (t.raise r.2).writeV d r.1)

/-- The home that the pair has asked has answered, and without an error (R153, R187). -/
def State.Answered (s : State) : Prop := ∃ a, s.ctx.answered = some a ∧ a.err = none

/-- The pair asks a home whose answer decides on it: its slot parks in state 3 until the answer, and nothing else happens
(R153, R187); `q` is what it asks. -/
def Asks (i : Instr) (s : State) (q : Query) : Prop := exec i s = .next (s.asks q)

/-! ### The codes of FP32, FP16 and BF16 (R77, R85, R86) -/

/-- The sign, the exponent field and the fraction field of a code. -/
def signField (f : Fmt) (c : Nat) : Nat := c / 2 ^ (f.eb + f.mb) % 2
def expField (f : Fmt) (c : Nat) : Nat := c / 2 ^ f.mb % 2 ^ f.eb
def fracField (f : Fmt) (c : Nat) : Nat := c % 2 ^ f.mb
/-- A NaN, a signalling one, and an infinity (R77). -/
def IsNan (f : Fmt) (c : Nat) : Prop := expField f c = 2 ^ f.eb - 1 ∧ fracField f c ≠ 0
def IsSignalling (f : Fmt) (c : Nat) : Prop := IsNan f c ∧ fracField f c < 2 ^ (f.mb - 1)
def IsInfinite (f : Fmt) (c : Nat) : Prop := expField f c = 2 ^ f.eb - 1 ∧ fracField f c = 0
/-- A finite code stands for (−1)^sign × `mantissa` × 2^`unitExp`; FTZ reads a subnormal as zero (R77, R85). -/
def IsFinite (f : Fmt) (c : Nat) : Prop := expField f c ≠ 2 ^ f.eb - 1
def mantissa (f : Fmt) (ftz : Bool) (c : Nat) : Nat :=
  if expField f c = 0 then (if ftz then 0 else fracField f c) else 2 ^ f.mb + fracField f c
def unitExp (f : Fmt) (c : Nat) : Int := (max 1 (expField f c) : Nat) - (f.bias : Int) - f.mb
/-- The canonical NaN, and the quiet NaN of a NaN (R77, R86). -/
def nanCode (f : Fmt) : Nat := (2 ^ f.eb - 1) * 2 ^ f.mb + 2 ^ (f.mb - 1)
def quieted (f : Fmt) (r : Rnd) (c : Nat) : Nat :=
  if r.nanCanon = true then nanCode f else if fracField f c < 2 ^ (f.mb - 1) then c + 2 ^ (f.mb - 1) else c
/-- A code as an operation reads it, in numeric order: −0 and +0 are equal. -/
def numericKey (f : Fmt) (ftz : Bool) (c : Nat) : Int :=
  let m : Int := if ftz = true ∧ expField f c = 0 then 0 else (c % 2 ^ (f.eb + f.mb) : Nat)
  if signField f c = 1 then -m else m

/-! ### Accesses -/

/-- An access issues: no earlier access of the thread holds it back, and a result tag is free (R153, R154, R167, R169, R348). `x`
marks a relaxed one, `st` a store or an atomic; its elements of `n` bytes lie at the homes `hs`. -/
def State.MayAccess (s : State) (x st : Bool) (n : Nat) (hs : List Home) : Prop :=
  s.tagBusy = false ∧ if x then s.relaxedBlocked st = false ∧ s.overlaps n hs = false else s.plainBlocked = false

/-- An access `op` alone in its pair, of a task that is not redundant, whose addresses come to `r`; its elements of `n`
bytes lie at the homes `hs`. It is outstanding after the issue, and a plain one parks the slot in state 3; `count` is what a
store does at its write channel. Where an earlier access holds it back the slot parks and nothing else happens, and before
any fault; where an address fails the pair faults (R47, R50, R153, R154). -/
def Accesses (i : Instr) (s : State) (x st : Bool) (n : Nat) (hs : List Home) (gs : List GIx) (vs : List VIx) (gd : List GIx)
    (vd : List VIx) (r : Except Trap AccOp) (count : AccOp → State → State) : Prop :=
  s.rdt = false → s.Open gs vs gd vd →
    (∀ op, r = .ok op → s.MayAccess x st n hs →
      exec i s = .next (parkAfter (!x) (s.issues gs vs fun t => (count op t).startAcc op (!x)))) ∧
    (¬s.MayAccess x st n hs → Parks i s .mem) ∧
    (∀ t, r = .error t → s.MayAccess x st n hs → Traps i s t)

/-- The exact integer `z` as a 64-bit result: `w`, its low bits, and no flag; under SAT the nearer end of the range and
SATUR and OF, where `z` lies outside −2^63 to 2^63 − 1 (R82, R96). -/
def clamped (sat : Bool) (z : Int) (w : Word) : Word × Flags :=
  if sat = true ∧ 2 ^ 63 - 1 < z then (0x7FFFFFFFFFFFFFFF, Flag.satur ||| Flag.of)
  else if sat = true ∧ z < -2 ^ 63 then (0x8000000000000000, Flag.satur ||| Flag.of)
  else (w, 0)

end Sys2Proof.Machine
end

