-- ==== Sys2Proof/Certificates/Slice0/Obligations.lean ====
section
/-! DEFINITION. The statements for the provers. -/

open Sys2Proof Sys2Proof.Machine

/-! ### Scalar instructions (05) -/

/-- R95, R96, R97: the integer ALU. -/
def Obligations.IntegerAluResults : Prop :=
  ∀ (s : State) (d a b : GIx), let x := s.gv a; let y := s.gv b; let sat := s.rnd.sat
    IssuesG (.add d a b) s [a, b] d (clamped sat (x.toInt + y.toInt) (x + y)) ∧
    IssuesG (.sub d a b) s [a, b] d (clamped sat (x.toInt - y.toInt) (x - y)) ∧
    IssuesG (.mul d a b) s [a, b] d (clamped sat (x.toInt * y.toInt) (x * y)) ∧
    IssuesG (.mulh d a b) s [a, b] d ((x.signExtend 128 * y.signExtend 128).extractLsb' 64 64, 0) ∧
    IssuesG (.mulhu d a b) s [a, b] d ((x.zeroExtend 128 * y.zeroExtend 128).extractLsb' 64 64, 0) ∧
    IssuesG (.div d a b) s [a, b] d
      (if y = 0 then (0xFFFFFFFFFFFFFFFF, Flag.dz) else clamped sat (x.toInt.tdiv y.toInt) (x.sdiv y)) ∧
    IssuesG (.divu d a b) s [a, b] d (if y = 0 then (0xFFFFFFFFFFFFFFFF, Flag.dz) else (x / y, 0)) ∧
    IssuesG (.rem d a b) s [a, b] d
      (if y = 0 then (x, Flag.dz)
      else if sat = true ∧ x = 0x8000000000000000 ∧ y = 0xFFFFFFFFFFFFFFFF then (0, Flag.satur ||| Flag.of)
      else (x.srem y, 0)) ∧
    IssuesG (.remu d a b) s [a, b] d (if y = 0 then (x, Flag.dz) else (x % y, 0)) ∧
    IssuesG (.and d a b) s [a, b] d (x &&& y, 0) ∧
    IssuesG (.or d a b) s [a, b] d (x ||| y, 0) ∧
    IssuesG (.xor d a b) s [a, b] d (x ^^^ y, 0) ∧
    IssuesG (.andn d a b) s [a, b] d (x &&& ~~~y, 0) ∧
    IssuesG (.shl d a b) s [a, b] d (x <<< (y.toNat % 64), 0) ∧
    IssuesG (.shr d a b) s [a, b] d (x >>> (y.toNat % 64), 0) ∧
    IssuesG (.sra d a b) s [a, b] d (x.sshiftRight (y.toNat % 64), 0) ∧
    IssuesG (.min d a b) s [a, b] d (if x.toInt ≤ y.toInt then x else y, 0) ∧
    IssuesG (.max d a b) s [a, b] d (if y.toInt ≤ x.toInt then x else y, 0) ∧
    IssuesG (.minu d a b) s [a, b] d (if x.toNat ≤ y.toNat then x else y, 0) ∧
    IssuesG (.maxu d a b) s [a, b] d (if y.toNat ≤ x.toNat then x else y, 0) ∧
    IssuesG (.mov d a) s [a] d (x, 0)

/-- R98 to R102: immediates, shifts by an immediate, constants and LEA. -/
def Obligations.ImmediateResults : Prop :=
  ∀ (s : State) (d a b : GIx) (imm : BitVec 13) (sh : BitVec 6) (lit : BitVec 32) (q : BitVec 3) (i6 : BitVec 6),
    let x := s.gv a
    let i := imm.signExtend 64
    IssuesG (.addi d a imm) s [a] d (clamped s.rnd.sat (x.toInt + imm.toInt) (x + i)) ∧
    IssuesG (.andi d a imm) s [a] d (x &&& i, 0) ∧
    IssuesG (.ori d a imm) s [a] d (x ||| i, 0) ∧
    IssuesG (.xori d a imm) s [a] d (x ^^^ i, 0) ∧
    IssuesG (.shli d a sh) s [a] d (x <<< sh.toNat, 0) ∧
    IssuesG (.shri d a sh) s [a] d (x >>> sh.toNat, 0) ∧
    IssuesG (.srai d a sh) s [a] d (x.sshiftRight sh.toNat, 0) ∧
    IssuesG (.movi d imm) s [] d (i, 0) ∧
    IssuesG (.movl d lit) s [] d (lit.signExtend 64, 0) ∧
    IssuesG (.movh d lit) s [d] d ((lit.zeroExtend 64 <<< 32) ||| (s.gv d &&& 0x00000000FFFFFFFF), 0) ∧
    IssuesG (.lea d a b q i6) s [a, b] d (x + (s.gv b <<< q.toNat) + i6.signExtend 64, 0)

/-- R103 to R106: comparison, counting, bit fields and selection. R12, R44, R107: predicates and the lane mask, and
the A slot that does nothing. Bit 0 of PW reads 1 and is not written. -/
def Obligations.ComparePredicateResults : Prop :=
  (∀ (s : State) (d a b : GIx) (p : PIx) (imm : BitVec 10) (w q n : BitVec 6),
    let x := s.gv a
    let y := s.gv b
    let i := imm.signExtend 64
    let holds : Word → List (ICond × Prop) := fun y => [(.eq, x = y), (.ne, x ≠ y), (.lt, x.toInt < y.toInt),
      (.ge, y.toInt ≤ x.toInt), (.ltu, x.toNat < y.toNat), (.geu, y.toNat ≤ x.toNat)]
    (∀ e ∈ holds y, ∃ r : Bool, (r = true ↔ e.2) ∧ Issues (.cmp e.1 p a b) s [a, b] [] [] [] fun t => t.writeP p r) ∧
    (∀ e ∈ holds i, ∃ r : Bool, (r = true ↔ e.2) ∧ Issues (.cmpi e.1 p a imm) s [a] [] [] [] fun t => t.writeP p r) ∧
    (∃ z : Nat, IssuesG (.clz d a) s [a] d (BitVec.ofNat 64 z, 0) ∧ z ≤ 64 ∧ (∀ k, 64 - z ≤ k → x.getLsbD k = false) ∧
      (z < 64 → x.getLsbD (63 - z) = true)) ∧
    (∃ z : Nat, IssuesG (.ctz d a) s [a] d (BitVec.ofNat 64 z, 0) ∧ z ≤ 64 ∧ (∀ k, k < z → x.getLsbD k = false) ∧
      (z < 64 → x.getLsbD z = true)) ∧
    IssuesG (.popc d a) s [a] d (BitVec.ofNat 64 ((List.range 64).countP fun k => x.getLsbD k), 0) ∧
    IssuesG (.sext d a w) s [a] d ((x.extractLsb' 0 (w.toNat + 1)).signExtend 64, 0) ∧
    IssuesG (.zext d a w) s [a] d (x &&& (BitVec.allOnes 64 >>> (63 - w.toNat)), 0) ∧
    IssuesG (.bfx false d a q n) s [a] d ((x >>> q.toNat) &&& (BitVec.allOnes 64 >>> (63 - n.toNat)), 0) ∧
    IssuesG (.bfx true d a q n) s [a] d (((x >>> q.toNat).extractLsb' 0 (n.toNat + 1)).signExtend 64, 0) ∧
    (∀ mask, mask = (BitVec.allOnes 64 >>> (63 - n.toNat)) <<< q.toNat →
      IssuesG (.bfi d a q n) s [d, a] d ((s.gv d &&& ~~~mask) ||| ((x <<< q.toNat) &&& mask), 0)) ∧
    IssuesG (.sel d a b p) s [a, b] d (if s.ctx.pred p then x else y, 0)) ∧
  (∀ (s : State) (d a : GIx) (p q r : PIx),
    Issues (.pand p q r) s [] [] [] [] (fun t => t.writeP p (s.ctx.pred q && s.ctx.pred r)) ∧
    Issues (.por p q r) s [] [] [] [] (fun t => t.writeP p (s.ctx.pred q || s.ctx.pred r)) ∧
    Issues (.pxor p q r) s [] [] [] [] (fun t => t.writeP p (s.ctx.pred q ^^ s.ctx.pred r)) ∧
    Issues (.pnot p q) s [] [] [] [] (fun t => t.writeP p (!s.ctx.pred q)) ∧
    IssuesG (.pget d) s [] d ((s.ctx.pw ||| 1).zeroExtend 64, 0) ∧
    (∃ w : BitVec 16, Issues (.pset a) s [a] [] [] [] (fun t => t.modCtx fun c => { c with pw := w }) ∧
      ∀ k : PIx, (Ctx.pred { s.ctx with pw := w } k = if k = 0 then true else (s.gv a).getLsbD k.val)) ∧
    IssuesG (.lmget d) s [] d (s.ctx.lm, 0) ∧
    Issues (.lmset a) s [a] [] [] [] (fun t => t.modCtx fun c => { c with lm := s.gv a }) ∧
    Issues .anop s [] [] [] [] id ∧
    (∀ b, (s.writeP p b).ctx.pred p = (p == 0 || b)) ∧
    ∀ b, q ≠ p → (s.writeP p b).ctx.pred q = s.ctx.pred q)

/-- R108 to R115: scalar floating point. A source is the low bits of its register, of the format's width; the result of
each operation is that of the model's rounding operations, of which the further clauses state the rules: R83 to R85, one
rounding of the exact value, its four modes, overflow, underflow and FTZ; R86, the first NaN operand quieted, or the canonical
NaN, and NV; R109, division by zero, square roots and the sign of a zero sum; R110, minimum and maximum; R112, the classes;
R113, the fused product; R114, comparison; R87, R88, R115, conversions. -/
def Obligations.ScalarFloatResults : Prop :=
  (∀ (s : State) (f : FFmt) (d a b c : GIx) (p : PIx) (m : SgnMode) (cond : FCond) (np na : Bool),
    let wide := match f with | .f32 => 32 | .f16 => 16 | .bf16 => 16
    let x := (s.gv a).toNat % 2 ^ wide
    let y := (s.gv b).toNat % 2 ^ wide
    let z := (s.gv c).toNat % 2 ^ wide
    let sx := x / 2 ^ (wide - 1)
    let sy := y / 2 ^ (wide - 1)
    let sign := match m with | .cpy => sy | .neg => 1 - sy | .xor => (sx + sy) % 2
    let F := fmtOf f
    let toI64 := toIntF F s.rnd 64 x
    let toI32 := toIntF F s.rnd 32 x
    let compared := cmpF F s.rnd cond x y
    let out : Nat × Flags → Word × Flags := fun r => (BitVec.ofNat 64 r.1, r.2)
    IssuesG (.fadd f d a b) s [a, b] d (out (addF F s.rnd x y)) ∧
    IssuesG (.fsub f d a b) s [a, b] d (out (subF F s.rnd x y)) ∧
    IssuesG (.fmul f d a b) s [a, b] d (out (mulF F s.rnd x y)) ∧
    IssuesG (.fdiv f d a b) s [a, b] d (out (divF F s.rnd x y)) ∧
    IssuesG (.fsqrt f d a) s [a] d (out (sqrtF F s.rnd x)) ∧
    IssuesG (.fmin f d a b) s [a, b] d (out (minMaxF F s.rnd false x y)) ∧
    IssuesG (.fmax f d a b) s [a, b] d (out (minMaxF F s.rnd true x y)) ∧
    IssuesG (.fsgn f m d a b) s [a, b] d (BitVec.ofNat 64 (x % 2 ^ (wide - 1) + sign * 2 ^ (wide - 1)), 0) ∧
    (∀ k, k = (if expField F x = 2 ^ F.eb - 1 then
          (if fracField F x = 0 then (if signField F x = 1 then 0 else 7) else if fracField F x < 2 ^ (F.mb - 1) then 8 else 9)
        else if expField F x = 0 then
          (if fracField F x = 0 then (if signField F x = 1 then 3 else 4) else if signField F x = 1 then 2 else 5)
        else if signField F x = 1 then 1 else 6) →
      IssuesG (.fclass f d a) s [a] d (BitVec.ofNat 64 (2 ^ k), 0)) ∧
    IssuesG (.ffma f np na d a b (some c)) s [a, b, c] d (out (fmaF F s.rnd np na x y z)) ∧
    IssuesG (.ffma f np na d a b none) s [a, b] d (out (fmaF F s.rnd np false x y 0)) ∧
    Issues (.fcmp f cond p a b) s [a, b] [] [] [] (fun t => (t.raise compared.2).writeP p compared.1) ∧
    IssuesG (.fcvt f .toI64 d a) s [a] d (BitVec.ofInt 64 toI64.1, toI64.2) ∧
    IssuesG (.fcvt f .toI32 d a) s [a] d (BitVec.ofInt 64 toI32.1, toI32.2) ∧
    IssuesG (.fcvt f .fromI64 d a) s [a] d (out (fromIntF F s.rnd (s.gv a).toInt)) ∧
    IssuesG (.fcvt f .fromI32 d a) s [a] d (out (fromIntF F s.rnd ((s.gv a).extractLsb' 0 32).toInt)) ∧
    IssuesG (.fcvt f .toF32 d a) s [a] d (out (convF F .fp32 s.rnd x)) ∧
    IssuesG (.fcvt f .fromF32 d a) s [a] d (out (convF .fp32 F s.rnd ((s.gv a).toNat % 2 ^ 32)))) ∧
  (∀ (mode : RMode) (neg : Bool) (m sh : Nat) (e : Int), 0 < sh →
    let k := (roundAt mode neg m e false (e + sh)).1
    ((roundAt mode neg m e false (e + sh)).2 = true ↔ m % 2 ^ sh ≠ 0) ∧
    (mode = .rtz ∨ (mode = .rdn ∧ neg = false) ∨ (mode = .rup ∧ neg = true) → k * 2 ^ sh ≤ m ∧ m < (k + 1) * 2 ^ sh) ∧
    ((mode = .rdn ∧ neg = true) ∨ (mode = .rup ∧ neg = false) → m ≤ k * 2 ^ sh ∧ k * 2 ^ sh < m + 2 ^ sh) ∧
    (mode = .rne → 2 * (k * 2 ^ sh) ≤ 2 * m + 2 ^ sh ∧ 2 * m ≤ 2 * (k * 2 ^ sh) + 2 ^ sh ∧
      (2 * (k * 2 ^ sh) = 2 * m + 2 ^ sh ∨ 2 * m = 2 * (k * 2 ^ sh) + 2 ^ sh → k % 2 = 0)) ∧
    roundAt mode neg m e true (e + sh) = roundAt mode neg (2 * m + 1) (e - 1) false (e + sh) ∧
    roundAt mode neg m (e + sh) false e = (m * 2 ^ sh, false)) ∧
  (∀ (f : FFmt) (r : Rnd) (neg : Bool) (m : Nat) (e : Int) (sticky : Bool), m ≠ 0 →
    let F := fmtOf f
    let s := if neg then 2 ^ (F.eb + F.mb) else 0
    let top : Int := e + m.log2
    let n := (roundAt r.mode neg m e sticky (top - F.mb)).1
    let inexact := (roundAt r.mode neg m e sticky (top - F.mb)).2
    let top' : Int := if n = 2 ^ (F.mb + 1) then top + 1 else top
    let toMax := r.mode = .rtz ∨ (r.mode = .rdn ∧ neg = false) ∨ (r.mode = .rup ∧ neg = true)
    let low := roundAt r.mode neg m e sticky (1 - F.bias - F.mb)
    2 ^ F.mb ≤ n ∧ n ≤ 2 ^ (F.mb + 1) ∧
    (top' < 1 - F.bias → roundF F r neg m e sticky =
      (if r.ftz = true then (s, Flag.uf ||| Flag.nx) else (s + low.1, if low.2 = true then Flag.uf ||| Flag.nx else 0))) ∧
    (1 - F.bias ≤ top' → top' ≤ F.bias → roundF F r neg m e sticky =
      (s + ((top + F.bias).toNat * 2 ^ F.mb + n - 2 ^ F.mb), if inexact = true then Flag.nx else 0)) ∧
    (F.bias < top' → roundF F r neg m e sticky =
      (if toMax then (s + (2 ^ F.eb - 1) * 2 ^ F.mb - 1, Flag.of ||| Flag.nx)
      else if r.sat = true then (s + (2 ^ F.eb - 1) * 2 ^ F.mb - 1, Flag.of ||| Flag.nx ||| Flag.satur)
      else (s + (2 ^ F.eb - 1) * 2 ^ F.mb, Flag.of ||| Flag.nx)))) ∧
  (∀ (f : FFmt) (r : Rnd) (x y z n : Nat) (np na : Bool), let F := fmtOf f
    x < 2 ^ (F.eb + F.mb + 1) → y < 2 ^ (F.eb + F.mb + 1) → z < 2 ^ (F.eb + F.mb + 1) →
    let inf := (2 ^ F.eb - 1) * 2 ^ F.mb
    let neg : Nat → Bool := fun c => signField F c == 1
    let s : Bool → Nat := fun b => if b then 2 ^ (F.eb + F.mb) else 0
    let man := mantissa F r.ftz
    let lg := unitExp F
    let as : Nat → Nat := fun c => if r.ftz = true ∧ expField F c = 0 then s (neg c) else c
    let sum : Bool → Nat → Int → Bool → Nat → Int → Nat × Flags → Prop := fun sa ma ea sb mb eb res =>
      let q := min ea eb
      let v : Int := (if sa then -1 else 1) * (ma * 2 ^ (ea - q).toNat) + (if sb then -1 else 1) * (mb * 2 ^ (eb - q).toNat)
      (v ≠ 0 → res = roundF F r (decide (v < 0)) v.natAbs q false) ∧
      (v = 0 → res = (s (if ma = 0 ∧ mb = 0 ∧ sa = sb then sa else decide (r.mode = .rdn)), 0))
    (∀ op ∈ [addF F r, subF F r, mulF F r, divF F r, minMaxF F r false, minMaxF F r true],
      (IsSignalling F x ∨ IsSignalling F y → op x y = (quieted F r (if expField F x = 2 ^ F.eb - 1 ∧ fracField F x ≠ 0 then x else y), Flag.nv)) ∧
      (IsNan F x → IsNan F y → ¬IsSignalling F x → ¬IsSignalling F y → op x y = (quieted F r x, 0))) ∧
    (∀ op ∈ [addF F r, subF F r, mulF F r, divF F r],
      (IsNan F x → ¬IsSignalling F x → ¬IsSignalling F y → op x y = (quieted F r x, 0)) ∧
      (¬IsNan F x → IsNan F y → ¬IsSignalling F y → op x y = (quieted F r y, 0))) ∧
    (∀ mx, (¬IsNan F x → IsNan F y → ¬IsSignalling F y → minMaxF F r mx x y = (as x, 0)) ∧
      (IsNan F x → ¬IsSignalling F x → ¬IsNan F y → minMaxF F r mx x y = (as y, 0)) ∧
      (¬IsNan F x → ¬IsNan F y →
        let less : Nat → Nat → Prop := fun a b => numericKey F r.ftz a < numericKey F r.ftz b ∨
          (numericKey F r.ftz a = numericKey F r.ftz b ∧ neg a = true ∧ neg b = false)
        (if mx then less x y else less y x) → minMaxF F r mx x y = (as y, 0)) ∧
      (¬IsNan F x → ¬IsNan F y → numericKey F r.ftz x = numericKey F r.ftz y → neg x = neg y → minMaxF F r mx x y = (as x, 0)) ∧
      (¬IsNan F x → ¬IsNan F y → minMaxF F r mx x y = (as x, 0) ∨ minMaxF F r mx x y = (as y, 0))) ∧
    (IsInfinite F x → IsInfinite F y → addF F r x y = (if neg x = neg y then (x, 0) else (nanCode F, Flag.nv)) ∧
      subF F r x y = (if neg x = neg y then (nanCode F, Flag.nv) else (x, 0)) ∧ divF F r x y = (nanCode F, Flag.nv) ∧
      mulF F r x y = (s (neg x != neg y) + inf, 0)) ∧
    (IsInfinite F x → IsFinite F y → addF F r x y = (x, 0) ∧ subF F r x y = (x, 0) ∧ divF F r x y = (s (neg x != neg y) + inf, 0) ∧
      mulF F r x y = (if man y = 0 then (nanCode F, Flag.nv) else (s (neg x != neg y) + inf, 0))) ∧
    (IsFinite F x → IsInfinite F y → addF F r x y = (y, 0) ∧ subF F r x y = (s (!neg y) + inf, 0) ∧ divF F r x y = (s (neg x != neg y), 0) ∧
      mulF F r x y = (if man x = 0 then (nanCode F, Flag.nv) else (s (neg x != neg y) + inf, 0))) ∧
    (IsFinite F x → IsFinite F y →
      sum (neg x) (man x) (lg x) (neg y) (man y) (lg y) (addF F r x y) ∧
      sum (neg x) (man x) (lg x) (!neg y) (man y) (lg y) (subF F r x y) ∧
      mulF F r x y = (if man x = 0 ∨ man y = 0 then (s (neg x != neg y), 0)
        else roundF F r (neg x != neg y) (man x * man y) (lg x + lg y) false) ∧
      (man y = 0 → divF F r x y = (if man x = 0 then (nanCode F, Flag.nv) else (s (neg x != neg y) + inf, Flag.dz))) ∧
      (man x = 0 → man y ≠ 0 → divF F r x y = (s (neg x != neg y), 0)) ∧
      (man x ≠ 0 → man y ≠ 0 → n * man y ≤ man x * 2 ^ 80 → man x * 2 ^ 80 < (n + 1) * man y →
        divF F r x y = roundF F r (neg x != neg y) n (lg x - lg y - 80) (decide (n * man y ≠ man x * 2 ^ 80)))) ∧
    (IsNan F x → sqrtF F r x = (quieted F r x, if fracField F x < 2 ^ (F.mb - 1) then Flag.nv else 0)) ∧
    (IsInfinite F x → sqrtF F r x = (if neg x then (nanCode F, Flag.nv) else (x, 0))) ∧
    (IsFinite F x → (man x = 0 → sqrtF F r x = (s (neg x), 0)) ∧ (man x ≠ 0 → neg x = true → sqrtF F r x = (nanCode F, Flag.nv)) ∧
      (man x ≠ 0 → neg x = false → ∀ odd : Nat, odd < 2 → (lg x - odd) % 2 = 0 →
        n * n ≤ man x * 2 ^ (odd + 80) → man x * 2 ^ (odd + 80) < (n + 1) * (n + 1) →
          sqrtF F r x = roundF F r false n ((lg x - odd) / 2 - 40) (decide (n * n ≠ man x * 2 ^ (odd + 80))))) ∧
    ((IsInfinite F x ∧ IsFinite F y ∧ man y = 0) ∨ (IsFinite F x ∧ man x = 0 ∧ IsInfinite F y) →
      fmaF F r np na x y z = (nanCode F, Flag.nv)) ∧
    (IsFinite F x → IsFinite F y → IsNan F z →
      fmaF F r np na x y z = (quieted F r z, if fracField F z < 2 ^ (F.mb - 1) then Flag.nv else 0)) ∧
    (IsFinite F x → IsFinite F y → IsFinite F z →
      sum ((neg x != neg y) != np) (man x * man y) (lg x + lg y) (neg z != na) (man z) (lg z) (fmaF F r np na x y z)) ∧
    (∀ k : FCond, (IsNan F x ∨ IsNan F y → (cmpF F r k x y).1 = (k == .un || k == .ne)) ∧
      (¬IsNan F x → ¬IsNan F y → (cmpF F r k x y).2 = 0 ∧ ((cmpF F r k x y).1 = true ↔ match k with
        | .eq => numericKey F r.ftz x = numericKey F r.ftz y
        | .lt => numericKey F r.ftz x < numericKey F r.ftz y
        | .le => numericKey F r.ftz x ≤ numericKey F r.ftz y
        | .un => False
        | .ne => numericKey F r.ftz x ≠ numericKey F r.ftz y)) ∧
      (IsSignalling F x ∨ IsSignalling F y ∨ ((k = .lt ∨ k = .le) ∧ (IsNan F x ∨ IsNan F y)) → (cmpF F r k x y).2 = Flag.nv) ∧
      (¬IsSignalling F x → ¬IsSignalling F y → k ≠ .lt → k ≠ .le → (cmpF F r k x y).2 = 0)) ∧
    (∀ w, w = 32 ∨ w = 64 →
      let hi : Int := 2 ^ (w - 1) - 1
      let lo : Int := -2 ^ (w - 1)
      (IsNan F x → toIntF F r w x = (0, Flag.nv)) ∧
      (IsInfinite F x → toIntF F r w x = (if neg x then lo else hi, Flag.nv ||| Flag.satur)) ∧
      (IsFinite F x →
        let k := (roundAt r.mode (neg x) (man x) (lg x) false 0).1
        let v : Int := if neg x then -k else k
        toIntF F r w x = (if hi < v then (hi, Flag.nv ||| Flag.satur) else if v < lo then (lo, Flag.nv ||| Flag.satur)
          else (v, if (roundAt r.mode (neg x) (man x) (lg x) false 0).2 = true then Flag.nx else 0)))) ∧
    (∀ G ∈ [Fmt.fp32, Fmt.fp16, Fmt.bf16],
      let pay := fracField F x * 2 ^ G.mb / 2 ^ F.mb
      (IsNan F x → convF F G r x = (if r.nanCanon = true then nanCode G else
          (if neg x then 2 ^ (G.eb + G.mb) else 0) + (2 ^ G.eb - 1) * 2 ^ G.mb + if pay < 2 ^ (G.mb - 1) then pay + 2 ^ (G.mb - 1) else pay,
        if fracField F x < 2 ^ (F.mb - 1) then Flag.nv else 0)) ∧
      (IsInfinite F x → convF F G r x = ((if neg x then 2 ^ (G.eb + G.mb) else 0) + (2 ^ G.eb - 1) * 2 ^ G.mb, 0)) ∧
      (IsFinite F x → convF F G r x = (if man x = 0 then (if neg x then 2 ^ (G.eb + G.mb) else 0, 0)
        else roundF G r (neg x) (man x) (lg x) false)))) ∧
  ∀ (f : FFmt) (r : Rnd) (v : Int),
    fromIntF (fmtOf f) r v = if v = 0 then (0, 0) else roundF (fmtOf f) r (decide (v < 0)) v.natAbs 0 false

/-! ### Vector instructions (06) -/

/-- R123 to R126, R133, R135: the instructions that work lane by lane. A lane that LM masks off under merge keeps what
`vd` held and sets no flag; that a VMOV with vd = va on a Dead register reads and writes it is the model's reading (log 61).
R122 to R124: what a lane operation makes of each lane, its wrap or clamp, and the lanes
that stay. -/
def Obligations.VectorLaneResults : Prop :=
  (∀ (s : State) (k : Lane) (e : ESize) (m : Bool) (vd va vb vc : VIx),
    let r := s.rnd
    let x := s.vv va
    let y := s.vv vb
    let z := s.vv vc
    let by2 : Nat → (Nat → Nat → Nat × Flags) → VWord × Flags := fun n f =>
      mapLanes n m s.ctx.lm (s.vv vd) fun i => f (lane n x i) (lane n y i)
    let by1 : Nat → Bool → (Nat → Nat × Flags) → VWord × Flags := fun n m f =>
      mapLanes n m s.ctx.lm (s.vv vd) fun i => f (lane n x i)
    IssuesV (.vadd k m vd va vb) s m [va, vb] vd (by2 k.bits (laneAdd k r)) ∧
    IssuesV (.vsub k m vd va vb) s m [va, vb] vd (by2 k.bits (laneSub k r)) ∧
    IssuesV (.vmul k m vd va vb) s m [va, vb] vd (by2 k.bits (laneMul k r)) ∧
    IssuesV (.vmin k m vd va vb) s m [va, vb] vd (by2 k.bits (laneMin k r)) ∧
    IssuesV (.vmax k m vd va vb) s m [va, vb] vd (by2 k.bits (laneMax k r)) ∧
    IssuesV (.vabs k m vd va) s m [va] vd (by1 k.bits m (laneAbs k r)) ∧
    IssuesV (.vneg k m vd va) s m [va] vd (by1 k.bits m (laneNeg k r)) ∧
    IssuesV (.vand e m vd va vb) s m [va, vb] vd (by2 e.bits fun a b => (a &&& b, 0)) ∧
    IssuesV (.vor e m vd va vb) s m [va, vb] vd (by2 e.bits fun a b => (a ||| b, 0)) ∧
    IssuesV (.vxor e m vd va vb) s m [va, vb] vd (by2 e.bits fun a b => (a ^^^ b, 0)) ∧
    IssuesV (.vshl e m vd va vb) s m [va, vb] vd (by2 e.bits fun a b => (a * 2 ^ (b % e.bits) % 2 ^ e.bits, 0)) ∧
    IssuesV (.vshr e m vd va vb) s m [va, vb] vd (by2 e.bits fun a b => (a / 2 ^ (b % e.bits), 0)) ∧
    IssuesV (.vsra e m vd va vb) s m [va, vb] vd
      (by2 e.bits fun a b => (((BitVec.ofNat e.bits a).sshiftRight (b % e.bits)).toNat, 0)) ∧
    IssuesV (.vmov e m vd va) s m [va] vd (by1 e.bits m fun a => (a, 0)) ∧
    IssuesV (.vsel e m vd va vb vc) s m [va, vb, vc] vd (mapLanes e.bits m s.ctx.lm (s.vv vd) fun i =>
      (if lane e.bits z i = 0 then lane e.bits y i else lane e.bits x i, 0)) ∧
    IssuesV (.vfma m vd va vb vc) s m [va, vb, vc] vd (mapLanes 32 m s.ctx.lm (s.vv vd) fun i =>
      fmaF .fp32 r false false (lane 32 x i) (lane 32 y i) (lane 32 z i)) ∧
    IssuesV (.vscale m vd va vb) s m [va, vb] vd (by2 32 fun a b => scaleF r a (b % 256)) ∧
    IssuesV (.vrcp vd va) s false [va] vd (by1 32 false (rcpF r)) ∧
    IssuesV (.vexp2 vd va) s false [va] vd (by1 32 false (exp2F r))) ∧
  ((∀ (n : Nat) (m : Bool) (lm : Word) (old : VWord) (f : Nat → Nat × Flags) (i : Nat), n = 8 ∨ n = 16 ∨ n = 32 → i < 512 / n →
    lane n (mapLanes n m lm old f).1 i = if m && !lm.getLsbD i then lane n old i else (f i).1 % 2 ^ n) ∧
  (∀ (n : Nat) (lm : Word) (old : VWord) (f : Nat → Nat × Flags), (∀ i, (f i).2 = 0) → ∀ m, (mapLanes n m lm old f).2 = 0) ∧
  (∀ (n : Nat) (x : VWord), n = 8 ∨ n = 16 ∨ n = 32 → ofLanes n ((List.range (512 / n)).map (lane n x)) = x) ∧
  (∀ (k : Lane) (r : Rnd) (a b : Nat), k ≠ .f → r.sat = false → a < 2 ^ k.bits → b < 2 ^ k.bits →
    laneAdd k r a b = ((a + b) % 2 ^ k.bits, 0) ∧ laneSub k r a b = ((a + 2 ^ k.bits - b) % 2 ^ k.bits, 0) ∧
      laneMul k r a b = (a * b % 2 ^ k.bits, 0)) ∧
  ∀ (r : Rnd), r.sat = true →
    laneAdd .b r 0x7F 1 = (0x7F, Flag.satur ||| Flag.of) ∧ laneSub .b r 0x80 1 = (0x80, Flag.satur ||| Flag.of) ∧
      laneMul .h r 0x100 0x100 = (0x7FFF, Flag.satur ||| Flag.of) ∧ laneAbs .b r 0x80 = (0x7F, Flag.satur ||| Flag.of) ∧
      laneNeg .h r 0x8000 = (0x7FFF, Flag.satur ||| Flag.of))

/-- R127, R128, R129: comparison into LM, and the moves of lanes. -/
def Obligations.VectorMoveResults : Prop :=
  ∀ (s : State) (op : VCmpOp) (e : ESize) (m : Bool) (vd va vb vc : VIx) (g : GIx) (ln : BitVec 6),
    let n := VCmpOp.bits op
    let cmp := (List.range (512 / n)).map fun i =>
      if m && !s.ctx.lm.getLsbD i then (false, 0) else VCmpOp.holds op s.rnd (lane n (s.vv va) i) (lane n (s.vv vb) i)
    Issues (.vcmp op m va vb) s [] [va, vb] [] []
      (fun t => (t.raise (unionF (cmp.map (·.2)))).modCtx fun c => { c with lm := BitVec.ofNat 64 (ofBits (cmp.map (·.1))) }) ∧
    Issues (.vbcast e vd g) s [g] [] [] [vd]
      (fun t => t.writeV vd (ofLanes e.bits (List.replicate (512 / e.bits) (s.gv g).toNat))) ∧
    Issues (.vext e g vd ln) s [] [vd] [g] [] (fun t => t.writeG g (BitVec.ofNat 64 (lane e.bits (s.vv vd) ln.toNat))) ∧
    (s.ctx.v[vd].waits = true → exec (.vins e vd g ln) s = .next (s.enter .reg)) ∧
    (s.ctx.v[vd].waits = false → Issues (.vins e vd g ln) s [g] [] [] [vd] fun t => t.writeV vd
      (ofLanes e.bits ((List.range (512 / e.bits)).map fun i =>
        if i = ln.toNat then (s.gv g).toNat else lane e.bits (s.vv vd) i))) ∧
    IssuesV (.vperm e m vd va vb vc) s m [va, vb, vc] vd (mapLanes e.bits m s.ctx.lm (s.vv vd) fun k =>
      let i := lane e.bits (s.vv vb) k % (2 * (512 / e.bits))
      (if i < 512 / e.bits then lane e.bits (s.vv va) i else lane e.bits (s.vv vc) (i - 512 / e.bits), 0))

/-- R130, R131, R132, R134: reductions, conversions and dot products write all of `vd`, whatever LM holds. That VDOT reads vc
is the model's choice between R134 and the parenthesis of R73 (log 60). -/
def Obligations.VectorReductionResults : Prop :=
  ∀ (s : State) (op : VRedOp) (k : Lane) (m ign : Bool) (c : VCvt) (vd va vb vc : VIx),
    let r := s.rnd
    let red := tree (VRedOp.lane op k r) 6 ((List.range (512 / k.bits)).map fun i =>
      if m && !s.ctx.lm.getLsbD i then none else some (lane k.bits (s.vv va) i))
    IssuesV (.vred op k m vd va) s false [va] vd (ofLanes k.bits [red.1.getD 0], red.2) ∧
    IssuesV (.vamax ign m vd va) s false [va] vd (amaxV r ign (amaxLanes (s.vv va) m s.ctx.lm)) ∧
    IssuesV (.vcvt c vd va vb) s false (if VCvt.narrows c then [va, vb] else [va]) vd
      (vcvtV c r (s.vv va) (s.vv vb) vb.val) ∧
    IssuesV (.vdot true vd va vb vc) s false [va, vb, vc] vd (packed 32 [dotFloat r (s.vv va) (s.vv vb) (s.vv vc)]) ∧
    IssuesV (.vdot false vd va vb vc) s false [va, vb, vc] vd
      (packed 32 ((List.range 16).map (dotInt r (s.vv va) (s.vv vb) (s.vv vc))))

/-! ### Control flow and the end of a task (05) -/

/-- R20, R41, R44, R116 to R118: branches, calls and returns. A call marks the registers that CMASK names Dead and
leaves the return address in g8; a return marks them Dead too. R20: the registers that CMASK names read as zero and
set DEADRD after a call, whatever they held; the rest stay. -/
def Obligations.ControlTransfers : Prop :=
  (∀ (s : State) (off : BitVec 19) (lit : BitVec 32) (a : GIx),
    let pc := s.ctx.pc
    let link : State → State := fun t => (t.modCtx (·.markDead)).writeG 8 (pc + 8)
    Issues .cnop s [] [] [] [] id ∧
    IssuesThen (.br off) s [] [] [] [] id (·.setPc (pc + off.signExtend 64 * 8)) ∧
    IssuesThen (.brWide lit) s [] [] [] [] id (·.setPc (pc + lit.signExtend 64 * 8)) ∧
    IssuesThen (.call off) s [] [] [8] [] link (·.setPc (pc + off.signExtend 64 * 8)) ∧
    IssuesThen (.callWide lit) s [] [] [8] [] link (·.setPc (pc + lit.signExtend 64 * 8)) ∧
    ((s.gv a).toNat % 8 = 0 → IssuesThen (.jmp a) s [a] [] [] [] id (·.setPc (s.gv a)) ∧
      IssuesThen (.callr a) s [a] [] [8] [] link (·.setPc (s.gv a))) ∧
    ((s.gv a).toNat % 8 ≠ 0 → (s.Open [a] [] [] [] → Traps (.jmp a) s ⟨Cause.misalign, s.gv a, 0⟩) ∧
      (s.Open [a] [] [8] [] → Traps (.callr a) s ⟨Cause.misalign, s.gv a, 0⟩)) ∧
    ((s.gv 8).toNat % 8 = 0 → IssuesThen .ret s [8] [] [] [] (·.modCtx (·.markDead)) (·.setPc (s.gv 8))) ∧
    ((s.gv 8).toNat % 8 ≠ 0 → s.Open [8] [] [] [] → Traps .ret s ⟨Cause.misalign, s.gv 8, 0⟩) ∧
    (∀ t : State, ∀ x, (t.setPc x).ctx.pc = x ∧ (t.setPc x).ctx.g = t.ctx.g)) ∧
  (∀ (c : Ctx) (d : GIx) (v : VIx),
    (c.cmask.getLsbD d.val = true → c.markDead.g[d].d = true ∧ c.markDead.g[d].f = false) ∧
    (c.cmask.getLsbD d.val = false → c.markDead.g[d] = c.g[d]) ∧
    (c.cmask.getLsbD (16 + v.val) = true → c.markDead.v[v].d = true ∧ c.markDead.v[v].f = false) ∧
    (c.cmask.getLsbD (16 + v.val) = false → c.markDead.v[v] = c.v[v]) ∧
    c.markDead.pc = c.pc ∧ c.markDead.sstat = c.sstat ∧ c.markDead.pw = c.pw ∧ c.markDead.lm = c.lm)

/-- R120, R121: HALT ends the task, at once where nothing of it or of its trailing copy is outstanding and else after it has settled; TRAPI and
SYSCALL leave the slot in state 8, with a record whose PC is the pair's own and whose ADDR holds the code, after the
pair has committed. R120, R202, R203, R226: what the end of a task that is not redundant leaves. Its channels are closed one after
the other, as WCCLOSE closes one (ChannelsOpenAndUsed); its tiles are released and its ports unbound; the obligations other than
seats on its region's own barrier go to the heir with a notice, and until that notice has its slot the task stays in state 10 with
its seats, else its slot is empty and then every seat is discharged, as ObjectRules says of one. That the trailing copy stands in
state 13 is the model's choice (log 24). -/
def Obligations.DeliberateStops : Prop :=
  (∀ (s : State) (code : BitVec 8),
    let t := s.issues [] [] id
    let r : BitVec 8 → TrapRec := fun cause =>
      { cause := cause, late := false, pc := s.ctx.pc, addr := code.zeroExtend 64, ranks := 0, pair := s.pair }
    (s.rdt = false ∨ s.ctx.trail = false →
      let busy : Prop := s.ctx.accs ≠ [] ∨ s.ctx.undrained = true ∨ s.trailBusy s.core s.slot = true
      (¬busy → exec .halt s = .next (t.haltNow s.core s.slot)) ∧
      (busy → exec .halt s = .next ((t.modCtx fun c => { c with cont := .halt }).enter .settle))) ∧
    (s.rdt = true → s.ctx.trail = true → exec .halt s = .next (t.enter .ending)) ∧
    exec (.trapi code) s = .next (t.takeTrap s.core s.slot (r 0x29)) ∧
    exec (.syscall code) s = .next (t.takeTrap s.core s.slot (r 0x2A)) ∧
    t.ctx.pc = s.ctx.pc + 8) ∧
  (∀ (s : State) (n : Nat) (i : Fin 16), s.isRdt (s.ctxAt n i).rcb = false →
    let tid := (s.ctxAt n i).tid
    let v := (s.handlesOf tid).foldl (fun s h => s.closeChan n i h none) s
    let c := v.ctxAt n i
    let seats := c.obls.filter fun o => o.ref == .local_ (c.rcb.toNat + 0xC0)
    let others := c.obls.filter fun o => !(o.ref == .local_ (c.rcb.toNat + 0xC0))
    let region := if c.start = .launched then c.rcb else v.rcbParent c.rcb
    let tiles : State → Prop := fun u => ∀ k : TIx, let sh := (v.coreAt n).shapes[k]
      ((sh.inuse || sh.cfg) = true ∧ sh.owner = BitVec.ofNat 4 i.val → (u.coreAt n).shapes[k] = Shape.init ∧
        (u.coreAt n).tiles[k] = TileData.zero) ∧
      (¬((sh.inuse || sh.cfg) = true ∧ sh.owner = BitVec.ofNat 4 i.val) → (u.coreAt n).shapes[k] = sh ∧
        (u.coreAt n).tiles[k] = (v.coreAt n).tiles[k])
    (others = [] → v.noticeWaits c.tid = false → ∃ u, s.haltNow n i = seats.foldl (fun s e => s.dischargeAll e none e.m) u ∧
      (u.slotAt n i).st = .empty ∧ u.ctxAt n i = Ctx.init ∧ tiles u ∧ u.mem = v.mem ∧ u.hub = v.hub ∧ u.net = v.net ∧
      ∀ j, j ≠ i → u.slotAt n j = v.slotAt n j) ∧
    (∀ hr, others ≠ [] → v.heirOf 64 region = some hr → ∃ m, let u := s.haltNow n i
      (u.coreAt n).msgs = (v.coreAt n).msgs ++ [m] ∧ m.kind = .notice ∧ m.rcb = hr ∧ m.obls = others ∧ m.about = c.tid ∧
      m.payload.take 4 = [1, c.tid.zeroExtend 64, if c.start = .launched then 0 else 4, BitVec.ofNat 64 others.length] ∧
      (u.slotAt n i).st = .settle ∧ (u.ctxAt n i).cont = .haltSeat ∧ (u.ctxAt n i).obls = seats ∧
      (u.ctxAt n i).ports = Vector.replicate 4 none ∧ tiles u ∧ u.mem = v.mem ∧ ∀ j, j ≠ i → u.slotAt n j = v.slotAt n j))

/-! ### Taking a trap and returning from it (02, 13) -/

/-- R50, R271, R276: a slot that takes a trap is in state 8 and holds the record; its registers, its obligations and all
memory stay. RESUME returns it to state 1, and a slot in another state stays. -/
def Obligations.TrapEntryAndReturn : Prop :=
  ∀ (s : State) (n : Nat) (i : Fin 16) (r : TrapRec) (t : Trap),
    let u := s.takeTrap n i r
    (u.slotAt n i).st = .faulted ∧ (u.ctxAt n i).trap = some r ∧
    (u.ctxAt n i).g = (s.ctxAt n i).g ∧ (u.ctxAt n i).v = (s.ctxAt n i).v ∧ (u.ctxAt n i).pc = (s.ctxAt n i).pc ∧
    (u.ctxAt n i).pw = (s.ctxAt n i).pw ∧ (u.ctxAt n i).lm = (s.ctxAt n i).lm ∧
    (u.ctxAt n i).sstat = (s.ctxAt n i).sstat ∧ (u.ctxAt n i).obls = (s.ctxAt n i).obls ∧
    ((s.ctxAt n i).trail = false → (u.coreAt n).pcnt7 = (s.coreAt n).pcnt7 + 1 ∧ (u.ctxAt n i).handled = false) ∧
    u.mem = s.mem ∧ u.hub = s.hub ∧ u.clk = s.clk ∧
    (∀ j, j ≠ i → u.slotAt n j = s.slotAt n j) ∧
    s.trapNow t = s.takeTrap s.core s.slot
      { cause := t.cause, late := false, pc := s.ctx.pc, addr := t.addr, ranks := t.ranks, pair := s.pair } ∧
    ((s.slotAt n i).st = .faulted → ((s.resumeTask n i).slotAt n i).st = .ready ∧
      ((s.resumeTask n i).ctxAt n i).trap = none ∧ ((s.resumeTask n i).ctxAt n i).g = (s.ctxAt n i).g ∧
      ((s.resumeTask n i).ctxAt n i).pc = (s.ctxAt n i).pc ∧ (s.resumeTask n i).mem = s.mem) ∧
    ((s.slotAt n i).st ≠ .faulted → s.resumeTask n i = s)

/-! ### Control registers, time and counters (01, 13) -/

/-- R7, R17, R265: what CRD writes to g(d), for a task that is not redundant. R274, R275: the device time, the clk count
and the event counts, for a task that is not redundant. -/
def Obligations.ControlAndTimeReads : Prop :=
  (∀ (s : State) (d : GIx) (n : Fin 4), s.rdt = false → s.Open [] [] [d] [] →
    let reads : CReg → Word → Prop := fun r v => exec (.crd d r) s = .next (s.issues [] [] fun t => t.writeG d v)
    reads .rnd (s.ctx.rnd.zeroExtend 64) ∧ reads .cmask (s.ctx.cmask.zeroExtend 64) ∧
    reads .sstat (s.ctx.sstat.zeroExtend 64) ∧ reads .minrank (BitVec.ofNat 64 s.ctx.minRank) ∧
    reads .tid (s.ctx.tid.zeroExtend 64) ∧ reads .rgn (s.ctx.rgn.zeroExtend 64) ∧
    reads .wch (s.ctx.wch.zeroExtend 64) ∧ reads .ecxsel (s.ctx.ecxsel.zeroExtend 64) ∧ reads .pc s.ctx.pc ∧
    reads .lm s.ctx.lm ∧ reads .mode (if s.ctx.mode then 1 else 0) ∧ reads .mfmt (s.cur.mfmt.zeroExtend 64) ∧
    reads .dpat (s.cur.dpat.zeroExtend 64) ∧ reads (.tline n) (BitVec.ofNat 64 (s.cur.ecx[n]).line) ∧
    reads .mbstat (BitVec.ofNat 64 (min s.cur.lost 255 * 256 + (if s.cur.sealed then 64 else 0) + min s.cur.mailbox.length 32)) ∧
    reads .wsphase (BitVec.ofNat 64 (s.wsphase (dieOfCore s.core))) ∧
    (s.ctx.mode = true →
      reads .elsel (s.ctx.elsel.zeroExtend 64) ∧
      reads .elog (((s.cur.ecx[Fin.ofNat 4 (s.ctx.elsel.toNat / 8)]).errs.getD (s.ctx.elsel.toNat % 8) 0)) ∧
      reads .wsfrz (if (s.dieAt (dieOfCore s.core)).wsfrz then 1 else 0) ∧
      reads .sampctl (s.hub.sampctl.zeroExtend 64) ∧
      reads .pcntclr 0)) ∧
  (∀ (s : State) (d a : GIx), s.rdt = false →
    (s.Open [] [] [d] [] →
      exec (.rdtime d) s = .next (s.issues [] [] fun t => t.writeG d (BitVec.ofNat 64 (s.clk * 5 / 8))) ∧
      exec (.rdcyc d) s = .next (s.issues [] [] fun t => t.writeG d (BitVec.ofNat 64 (s.clk - max s.cur.resetClk s.hub.warmClk)))) ∧
    (s.Open [a] [] [d] [] →
      (∀ k, k < 8 → s.gv a = BitVec.ofNat 64 k → exec (.pcnt d a) s = .next (s.issues [a] [] fun t => t.writeG d
        (BitVec.ofNat 64 ([s.ctx.pcnt0, s.ctx.pcnt1, s.cur.pcnt2, s.cur.pcnt3, (s.clusterAt s.cluster).pcnt4 - s.cur.pcnt4At,
          s.cur.pcnt5, s.cur.pcnt6, s.cur.pcnt7].getD k 0)))) ∧
      (8 ≤ (s.gv a).toNat → Traps (.pcnt d a) s ⟨0x1B, 0, 0⟩)))

/-- R17, R18, R265: what CWR does, for a task that is not redundant. A register that is read-only stays; writing 1 to
a bit of SSTAT clears it; a write of a count other than 0 to MBSTAT.LOST leaves the mailbox and clears LOST. R10, R17,
R265, R273: in user mode the supervisor registers and TLBINV fault PRIV, and the register or TLB stays. -/
def Obligations.ControlRegisterWrites : Prop :=
  (∀ (s : State) (d : GIx) (r : CReg), s.rdt = false → s.Open [d] [] [] [] → (sysReg r = false ∨ s.ctx.mode = true) →
    let w := s.gv d
    let keep : Flags := if s.ctx.g[d].d = true ∧ s.ctx.portOf d = none then Flag.deadrd else 0
    let task : (Ctx → Ctx) → Prop := fun f => exec (.cwr d r) s = .next (s.issues [d] [] fun t => t.modCtx f)
    match r with
    | .rnd => task fun c => { c with rnd := w.truncate 5 }
    | .cmask => task fun c => { c with cmask := w.truncate 24 }
    | .sstat => task fun c => { c with sstat := (c.sstat &&& ~~~(w.truncate 9)) ||| keep }
    | .ecxsel => task fun c => { c with ecxsel := w.truncate 2 }
    | .lm => task fun c => { c with lm := w }
    | .elsel => task fun c => { c with elsel := w.truncate 5 }
    | .dpat => exec (.cwr d r) s = .next (s.issues [d] [] fun t => t.modCur fun c => { c with dpat := w.truncate 29 })
    | .mbstat => exec (.cwr d r) s = .next (s.issues [d] [] fun t =>
        if w.extractLsb' 8 8 = 0 then t else t.modCur fun c => { c with lost := 0 })
    | .wsfrz => exec (.cwr d r) s = .next (s.issues [d] [] fun t =>
        t.modDie (dieOfCore s.core) fun x => { x with wsfrz := w.getLsbD 0 })
    | .sampctl => exec (.cwr d r) s = .next (s.issues [d] [] fun t => t.setSampctl (w.truncate 8))
    | .pcntclr => exec (.cwr d r) s = .next (s.issues [d] [] fun t => if w.getLsbD 0 then t.clearCounters s.core else t)
    | .minrank | .tid | .rgn | .wch | .pc | .mode | .mfmt | .tline _ | .wsphase | .elog =>
      exec (.cwr d r) s = .next (s.issues [d] [] id)) ∧
  (∀ (s : State) (d a b : GIx) (r : CReg), s.ctx.mode = false →
    (r = .elsel ∨ r = .elog ∨ r = .wsfrz ∨ r = .sampctl ∨ r = .pcntclr →
      (s.Open [] [] [d] [] → Traps (.crd d r) s ⟨0x02, 0, 0⟩) ∧
      (s.rdt = false → s.Open [d] [] [] [] → Traps (.cwr d r) s ⟨0x02, 0, 0⟩)) ∧
    (s.rdt = false → s.Open [a, b] [] [] [] → (s.plainBlocked = true → Parks (.tlbinv a b) s .mem) ∧
      (s.plainBlocked = false → Traps (.tlbinv a b) s ⟨0x02, 0, 0⟩)))

/-! ### Memory (08) -/

/-- R155, R157: the scalar loads. A narrow offset counts elements of the access size. R157, R160, R162: the scalar
stores, which write the low bytes of g(d). A store to a frozen weight store faults WEIGHT_WRITE. -/
def Obligations.ScalarAccessesIssue : Prop :=
  (∀ (s : State) (sz : Size) (x : Bool) (d base : GIx) (off : BitVec 8) (lit : BitVec 32),
    let n := match sz with | .b => 1 | .h => 2 | .w => 4 | .d => 8
    let near := s.gv base + off.signExtend 64 * BitVec.ofNat 64 n
    let far := s.gv base + lit.signExtend 64
    let load : Bool → Word → Except Trap AccOp := fun sx p => (s.element s.who p n n .read).map fun h => .loadG d n sx h p
    let as : Instr → Word → Except Trap AccOp → Prop := fun i p r =>
      Accesses i s x false n (s.reach s.who .read [p]) [base] [] [d] [] r fun _ t => t
    as (.ld sz x d base off) near (load false near) ∧ as (.ldWide sz x d base lit) far (load false far) ∧
    as (.lds sz x d base off) near (load true near) ∧ as (.ldsWide sz x d base lit) far (load true far)) ∧
  (∀ (s : State) (sz : Size) (x : Bool) (d base : GIx) (off : BitVec 8) (lit : BitVec 32),
    let n := match sz with | .b => 1 | .h => 2 | .w => 4 | .d => 8
    let near := s.gv base + off.signExtend 64 * BitVec.ofNat 64 n
    let far := s.gv base + lit.signExtend 64
    let as : Instr → Word → Prop := fun i p => Accesses i s x true n (s.reach s.who .write [p]) [base, d] [] [] [] (storeOp s n [p] [(s.gv d).toNat])
      fun op t => t.countStores (AccOp.homes op)
    as (.st sz x d base off) near ∧ as (.stWide sz x d base lit) far ∧
    (∀ p h, s.element s.who p n n .write = .ok h → s.frozen s.core h = false → s.countable [h] = true →
      storeOp s n [p] [(s.gv d).toNat] = .ok (.store n [(h, (s.gv d).toNat)] s.ctx.wch [p])) ∧
    (∀ p h, s.element s.who p n n .write = .ok h → s.frozen s.core h = true →
      storeOp s n [p] [(s.gv d).toNat] = .error ⟨0x20, p, 0⟩) ∧
    (∀ p t, s.element s.who p n n .write = .error t → storeOp s n [p] [(s.gv d).toNat] = .error t))

/-- R157 to R159: the vector loads and stores; elements in lane order, strided or indexed. LM masks none of them. An LDV from
this device is read in 4-byte lanes, and from a peer at once, which is the model's choice (log 65). -/
def Obligations.VectorAccessesIssue : Prop :=
  ∀ (s : State) (e : ESize) (x : Bool) (v w : VIx) (a b : GIx) (off : BitVec 8) (lit : BitVec 32),
    let n := match e with | .w => 4 | .h => 2 | .b => 1
    let near := s.gv a + off.signExtend 64 * 64
    let far := s.gv a + lit.signExtend 64
    let rows := (List.range (64 / n)).map fun k => s.gv a + BitVec.ofNat 64 k * s.gv b
    let picks := (List.range (64 / n)).map fun k => s.gv a + BitVec.ofNat 64 (vlane n (s.vv w) k * n)
    let lanes := (List.range (64 / n)).map fun k => vlane n (s.vv v) k
    let load : Nat → List Word → Except Trap AccOp := fun n ps =>
      (s.elements s.who n .read ps).map fun hs => .loadV v n ((List.range hs.length).zip hs) ps
    let ld : Instr → List GIx → List VIx → Nat → List Word → Prop := fun i gs vs n ps =>
      Accesses i s x false n (s.reach s.who .read ps) gs vs [] [v] (load n ps) fun _ t => t
    let ldv : Instr → Word → Prop := fun i p =>
      Accesses i s x false 64 (s.reach s.who .read [p]) [a] [] [] [v] ((s.element s.who p 64 64 .read).map fun h => match h with
        | .mem k => .loadV v 4 ((List.range 16).map fun j => (j, .mem (k + 4 * j))) (List.replicate 16 p)
        | .fab q o => .loadV v 64 [(0, .fab q o)] [p]) fun _ t => t
    let st : Instr → List GIx → List VIx → Nat → List Word → List Nat → Prop := fun i gs vs n ps data =>
      Accesses i s x true n (s.reach s.who .write ps) gs vs [] [] (storeOp s n ps data) fun op t => t.countStores (AccOp.homes op)
    ldv (.ldv x v a off) near ∧ ldv (.ldvWide x v a lit) far ∧
    ld (.ldvs e x v a b) [a, b] [] n rows ∧ ld (.vgath e x v a w) [a] [w] n picks ∧
    st (.stv x v a off) [a] [v] 64 [near] [(s.vv v).toNat] ∧
    st (.stvWide x v a lit) [a] [v] 64 [far] [(s.vv v).toNat] ∧
    st (.stvs e x v a b) [a, b] [v] n rows lanes ∧ st (.vscat e x v a w) [a] [v, w] n picks lanes

/-- R36, R155: an element's first byte is checked, then its last, then its alignment; bits 63:60 choose the kind of
address, and the other tags fault ADDR_TAG. Where only the last byte fails, the record carries the element's address, which is
the model's reading of R276 (log 62). -/
def Obligations.AddressChecks : Prop :=
  ∀ (s : State) (w : Who) (p : Word) (n : Nat) (k : AccKind),
    let last := p + BitVec.ofNat 64 (n - 1)
    (∀ c, s.resolve w p k = .error c → s.element w p n n k = .error ⟨c, p, 0⟩) ∧
    (∀ h c, s.resolve w p k = .ok h → s.resolve w last k = .error c → s.element w p n n k = .error ⟨c, p, 0⟩) ∧
    (∀ h g, s.resolve w p k = .ok h → s.resolve w last k = .ok g → p.toNat % n = 0 → s.element w p n n k = .ok h) ∧
    (∀ h g, s.resolve w p k = .ok h → s.resolve w last k = .ok g → p.toNat % n ≠ 0 →
      s.element w p n n k = .error ⟨0x07, p, 0⟩) ∧
    (p.toNat / 2 ^ 60 ≠ 0 → p.toNat / 2 ^ 60 ≠ 8 → p.toNat / 2 ^ 60 ≠ 14 → p.toNat / 2 ^ 60 ≠ 15 →
      s.resolve w p k = .error 0x04) ∧
    (p.toNat / 2 ^ 60 = 15 → p.toNat / 2 ^ 32 % 2 ^ 28 = 0 → w.privSize ≤ p.toNat % 2 ^ 32 → s.resolve w p k = .error 0x06) ∧
    (p.toNat / 2 ^ 60 = 8 → ∀ c, s.peerCheck (p.toNat / 2 ^ 48 % 2 ^ 12) = some c → s.resolve w p k = .error c)

/-- R153, R156, R158, R164, R321: ACCESS_COMPLETE performs an access at its home in this device. A load leaves the bytes,
extended, in its register; a store leaves its bytes; an atomic leaves the new value in memory and the old one in its
register; and the access is outstanding no more. Of a vector access with several elements left it performs the next one, in
lane order: that lane is loaded and every other lane stays, or that element is stored, and the access stays outstanding until its
last one, when the first that failed is its late fault. A 64-byte store is performed lane by lane, which is the model's choice
(log 65). -/
def Obligations.AccessesPerform : Prop :=
  ∀ (s : State) (n : Nat) (i : Fin 16) (a : Access) (key len : Nat) (p : Word),
    (s.ctxAt n i).accs.find? (fun x => x.id == a.id) = some a → s.dataFault key len false = none →
    let run := exec (.accessComplete n i.val a.id false) s
    (∀ d sx, a.op = .loadG d len sx (.mem key) p → run = .next (s.finishG n i a d (extend len sx (s.load key len)) 0)) ∧
    (∀ d lane ps, a.op = .loadV d len [(lane, .mem key)] ps →
      run = .next (s.arriveV n i a d len [(lane, s.load key len)] [] ps)) ∧
    (∀ d lane rest ps, a.op = .loadV d len ((lane, .mem key) :: rest) ps → rest ≠ [] → (∀ e ∈ rest, e.1 ≠ lane) →
      len ∈ [1, 2, 4] → lane < 64 / len → (s.ctxAt n i).v[d].tag = some a.id → ∃ t, run = .next t ∧
        (∀ j, j < 64 / len → vlane len (t.ctxAt n i).v[d].val j =
          if j = lane then s.load key len else vlane len (s.ctxAt n i).v[d].val j) ∧
        (t.ctxAt n i).v[d].tag = some a.id ∧ (t.ctxAt n i).v[d].f = (s.ctxAt n i).v[d].f ∧
        (t.ctxAt n i).accs = (s.ctxAt n i).accs.map (fun x => if x.id = a.id then { x with op := .loadV d len rest ps } else x) ∧
        (t.ctxAt n i).g = (s.ctxAt n i).g ∧ t.mem = s.mem) ∧
    (∀ els v wch ps, a.op = .store len els wch ps → len ≠ 64 → els[a.done]? = some (.mem key, v) → s.dropsStore key len = false →
      (a.done + 1 < els.length →
        run = .next ((s.store key len v).modAcc n i a.id fun x => { x with done := x.done + 1, bad := a.bad })) ∧
      (a.done + 1 = els.length → a.bad = none → run = .next ((s.store key len v).finishAcc n i a)) ∧
      (a.done + 1 = els.length → ∀ f, a.bad = some f → run = .next ((s.store key len v).failAcc n i a f.1 f.2))) ∧
    (∀ v wch ps, len = 64 → a.op = .store 64 [(.mem key, v)] wch ps → a.bad = none → s.dropsStore key 64 = false →
      let lane := s.storePart key 64 (key + 4 * a.done) 4 (v / 2 ^ (32 * a.done) % 2 ^ 32) (a.done == 15)
      (a.done < 15 → run = .next (lane.modAcc n i a.id fun x => { x with done := x.done + 1, bad := none })) ∧
      (a.done = 15 → run = .next (lane.finishAcc n i a))) ∧
    (∀ d op, a.op = .atomic d op (.mem key) p → op.w = len →
      run = .next ((match (op.result (s.load key len)).1 with
        | some v => s.store key len v
        | none => s).finishG n i a d (op.oldWord (s.load key len)) (op.result (s.load key len)).2))

/-- R153: a result that arrives in a Pending register makes it Full and ends the access. R51, R321, R373: data that a
home finds uncorrectable end a load with a late fault: the register is Dead, the record waits with the pair's PC and
the address that the program gave, and containment of the core is due. -/
def Obligations.ResultsArrive : Prop :=
  (∀ (s : State) (n : Nat) (i : Fin 16) (a : Access) (d : GIx) (v : Word) (f : Flags),
    let c := s.ctxAt n i
    (s.slotAt n i).st ≠ .settle → (c.trail = false ∨ (s.slotAt n (leadSlot i)).st ≠ .settle) → c.portOf d = none → c.g[d].tag = some a.id → a.lv = none → ∃ t, s.finishG n i a d v f = t ∧
      (c.g[d].d = false → (t.ctxAt n i).g[d] = { val := v, f := true, d := false, tag := none }) ∧
      (c.g[d].d = true → (t.ctxAt n i).g[d] = { c.g[d] with tag := none }) ∧
      (∀ e, e ≠ d → (t.ctxAt n i).g[e] = c.g[e]) ∧ (t.ctxAt n i).v = c.v ∧ (t.ctxAt n i).pc = c.pc ∧
      (t.ctxAt n i).sstat = c.sstat ||| f ∧ (∀ x ∈ (t.ctxAt n i).accs, x.id ≠ a.id) ∧ t.mem = s.mem) ∧
  (∀ (s : State) (n : Nat) (i : Fin 16) (a : Access) (key len : Nat) (sx : Bool) (d : GIx) (p : Word) (die : Nat),
    (s.ctxAt n i).accs.find? (fun x => x.id == a.id) = some a → a.op = .loadG d len sx (.mem key) p →
    spaceOf key = .dram die → s.poisoned key len = true → (s.ctxAt n i).g[d].tag = some a.id → (s.slotAt n i).st ≠ .settle →
    ((s.ctxAt n i).trail = false ∨ (s.slotAt n (leadSlot i)).st ≠ .settle) → ∃ t, exec (.accessComplete n i.val a.id false) s = .next t ∧
      (t.ctxAt n i).g[d].d = true ∧ (t.ctxAt n i).g[d].f = false ∧
      (∃ r, (t.ctxAt n i).late.getLast? = some r ∧ r.cause = 0x21 ∧ r.late = true ∧ r.pc = a.pc ∧ r.addr = p ∧ r.pair = a.pair) ∧
      (t.ctxAt n i).late.length = (s.ctxAt n i).late.length + 1 ∧
      t.agenda = .event (.containment n) :: s.agenda ∧ t.mem = s.mem)

/-- Memory: what is read after a store is what was stored, every other byte stays, and the canonical form stays (R41,
R156; log 1). R321: a store of part of a poisoned unit leaves memory and the poison; a store of whole units clears
their poison. -/
def Obligations.StoredBytesRead : Prop :=
  (∀ (s : State) (key n v : Nat), s.Sound → s.dropsStore key n = false → v < 256 ^ n →
    (s.store key n v).load key n = v ∧ (s.store key n v).Sound ∧
    (∀ x k, x + k ≤ key ∨ key + n ≤ x → (s.store key n v).load x k = s.load x k) ∧
    (∀ x, x < key ∨ key + n ≤ x → (s.store key n v).byte x = s.byte x) ∧
    (∀ k, k < n → (s.store key n v).byte (key + k) = BitVec.ofNat 8 (v / 256 ^ k))) ∧
  (∀ (s : State) (key n v u : Nat),
    (s.dropsStore key n = true → s.store key n v = s) ∧
    (s.dropsStore key n = false → (u ∈ (s.store key n v).poison ↔ u ∈ s.poison ∧ u ∉ unitsOf key n)) ∧
    (∀ die, spaceOf key = .dram die → n < 64 → s.poison.contains (key / 64 * 64) = true → 0 < n → s.dropsStore key n = true) ∧
    (∀ die, spaceOf key = .dram die → key % 64 = 0 → n = 64 → unitsOf key n = [key] ∧ s.dropsStore key n = false))

/-! ### Atomics and FENCE (08) -/

/-- R164: the new value of an atomic, the old one as g(d) receives it, when it writes, and its flags: an AFADD adds the FP32
numbers at its home and in bits 31:0 of its operand under the RND that it captured, and raises the flags of that sum; the
others raise none. The flags reach the status word with g(d) (AccessesPerform, ResultsArrive). -/
def Obligations.AtomicResults : Prop :=
  ∀ (x y : Word) (rnd : BitVec 5) (sg : Bool) (w old : Nat), (w = 4 ∨ w = 8) → old < 2 ^ (8 * w) →
    let m := 2 ^ (8 * w)
    let op : AtomK → AtomOp := fun k => { k := k, w := w, signed := sg, x := x, y := y, rnd := rnd }
    let b := x.toNat % m
    ((op .add).result old = (some ((old + b) % m), 0)) ∧ ((op .and).result old = (some (old &&& b), 0)) ∧
    ((op .or).result old = (some (old ||| b), 0)) ∧ ((op .xor).result old = (some (old ^^^ b), 0)) ∧
    ((op .swp).result old = (some b, 0)) ∧
    ((op .cas).result old = (if old = b then some (y.toNat % m) else none, 0)) ∧
    (sg = false → (op .min).result old = (some (min old b), 0) ∧ (op .max).result old = (some (max old b), 0)) ∧
    (sg = true → ∃ u v, (op .min).result old = (some u, 0) ∧ (op .max).result old = (some v, 0) ∧
      (BitVec.ofNat (8 * w) u).toInt = min (BitVec.ofNat (8 * w) old).toInt (BitVec.ofNat (8 * w) b).toInt ∧
      (BitVec.ofNat (8 * w) v).toInt = max (BitVec.ofNat (8 * w) old).toInt (BitVec.ofNat (8 * w) b).toInt) ∧
    (w = 4 → (op .fadd).result old = (some (addF .fp32 (Rnd.ofBits rnd) old (x.toNat % 2 ^ 32)).1,
      (addF .fp32 (Rnd.ofBits rnd) old (x.toNat % 2 ^ 32)).2)) ∧
    (∀ k, (op k).oldWord old = if w = 4 ∧ sg = true ∧ k ≠ .fadd then (BitVec.ofNat 32 old).signExtend 64 else BitVec.ofNat 64 old)

/-- R163 to R166: an atomic alone in its pair, of a task that is not redundant. It parks
while an earlier access holds it back (R154, R165, R167) or no result tag is free (R348; log 18). Its element is checked as a write; its home must take atomics; a home outside the declared scope sets SCOPEX and drops the ordering; acquire parks the slot until it
completes. -/
def Obligations.AtomicsIssue : Prop :=
  ∀ (s : State) (sz : ASize) (sc : Scope) (o : AOrder) (d addr v : GIx), s.rdt = false →
    let w : Nat := match sz with | .w => 4 | .wu => 4 | .d => 8 | .du => 8
    let sg : Bool := match sz with | .w => true | .d => true | .wu => false | .du => false
    let p := s.gv addr
    let op : AtomK → AtomOp := fun k => { k := k, w := w, signed := sg, x := s.gv v, y := 0, rnd := s.ctx.rnd }
    let goes : Instr → List GIx → AtomOp → Prop := fun i gs op =>
      s.Open (addr :: gs) [] [d] [] →
      let out := s.outsideScope sc p
      let o' := if out then .rlx else o
      let held : Prop := s.tagBusy = true ∨ ((o' = .rel ∨ o' = .ar) ∧ s.plainBlocked = true) ∨ s.relaxedBlocked true = true ∨
        s.overlaps op.w (s.reach s.who .write [p]) = true
      (held → Parks i s .mem) ∧
      (¬held → (∀ t, s.element s.who p op.w op.w .write = .error t → Traps i s t) ∧
        ∀ h, s.element s.who p op.w op.w .write = .ok h → out = !inScope s.core sc h ∧
          (atomicHome h = false → Traps i s ⟨0x06, p, 0⟩) ∧
          (atomicHome h = true →
            exec i s = .next (parkAfter (o' == .acq || o' == .ar) (s.issues (addr :: gs) [] fun t =>
              (t.startAcc (.atomic d op h p) (o' == .acq || o' == .ar)).raise (if out then Flag.scopex else 0)))))
    goes (.aadd sz sc o d addr v) [v] (op .add) ∧ goes (.aand sz sc o d addr v) [v] (op .and) ∧
    goes (.aor sz sc o d addr v) [v] (op .or) ∧ goes (.axor sz sc o d addr v) [v] (op .xor) ∧
    goes (.amin sz sc o d addr v) [v] (op .min) ∧ goes (.amax sz sc o d addr v) [v] (op .max) ∧
    goes (.aswp sz sc o d addr v) [v] (op .swp) ∧
    goes (.acas sz sc o d addr v) [v, v + 1] { op .cas with y := s.gv (v + 1) } ∧
    goes (.afadd sc o d addr v) [v] { op .fadd with w := 4, signed := false }

/-- R167: what a FENCE holds back, in its own thread: an acquire fence every later access behind the loads, atomics and
tile loads outstanding; a release fence every later store and atomic behind all accesses outstanding and behind the elements
that its write ports have taken; both together, every later access behind all. While an access or an element that is held for is
still outstanding, a later relaxed load, or a later relaxed store, atomic or REGPUT, parks in state 3. -/
def Obligations.FenceHolds : Prop :=
  (∀ (s : State) (sc : Scope) (o : FOrder), ∃ t, exec (.fence sc o) s = .next t ∧ t.ctx.accs = s.ctx.accs ∧ t.mem = s.mem ∧
    t.ctx.g = s.ctx.g ∧ t.ctx.pc = s.ctx.pc + 8 ∧
    let all := (s.ctx.accs.filter (·.earlier)).map (·.id)
    let loads := (s.ctx.accs.filter (·.acquirable)).map (·.id)
    match o with
    | .acq => t.ctx.holdAll = s.ctx.holdAll ++ loads ∧ t.ctx.holdRel = s.ctx.holdRel ∧
      t.ctx.holdAllPorts = s.ctx.holdAllPorts ∧ t.ctx.holdRelPorts = s.ctx.holdRelPorts
    | .rel => t.ctx.holdAll = s.ctx.holdAll ∧ t.ctx.holdRel = s.ctx.holdRel ++ all ∧
      t.ctx.holdAllPorts = s.ctx.holdAllPorts ∧ t.ctx.holdRelPorts = s.ctx.holdRelPorts ++ s.ctx.due
    | .ar => t.ctx.holdAll = s.ctx.holdAll ++ all ∧ t.ctx.holdRel = s.ctx.holdRel ++ all ∧
      t.ctx.holdAllPorts = s.ctx.holdAllPorts ++ s.ctx.due ∧ t.ctx.holdRelPorts = s.ctx.holdRelPorts ++ s.ctx.due) ∧
  (∀ (s : State) (sz : Size) (az : ASize) (sc : Scope) (d a b : GIx) (off : BitVec 8), s.rdt = false →
    let any := (∃ x ∈ s.ctx.accs, x.id ∈ s.ctx.holdAll) ∨ ∃ e ∈ s.ctx.due, e ∈ s.ctx.holdAllPorts
    let out := (∃ x ∈ s.ctx.accs, x.id ∈ s.ctx.holdRel) ∨ ∃ e ∈ s.ctx.due, e ∈ s.ctx.holdRelPorts
    (any → s.Open [a] [] [d] [] → Parks (.ld sz true d a off) s .mem) ∧
    (any ∨ out → (s.Open [a, b] [] [] [] → Parks (.st sz true b a off) s .mem) ∧
      (s.Open [a, b] [] [d] [] → Parks (.aadd az sc .rlx d a b) s .mem)) ∧
    (out → s.Open [a, b] [] [] [] → Parks (.regput a b) s .mem))

/-! ### Stream ports and register fills (08, R168 to R178) -/

/-- R16, R168 to R171: SBIND binds the port that its descriptor gives, SUNBIND unbinds it, SSTAT reads its status. R153: the home
of the descriptor is asked first, and its answer decides (log 5). R51, R321: a descriptor that cannot be read is a late fault
of the pair, which binds nothing. What SUNBIND leaves in the register of a write port that nothing was pushed to is the model's
choice (log 53), and that a load still to push an element comes before it (log 40). -/
def Obligations.StreamBinding : Prop :=
  ∀ (s : State) (d a : GIx) (k : Fin 4), portIx d = some k →
    (s.rdt = false → s.ctx.g[d].pending = false → s.Open [a] [] [] [] → s.plainBlocked = false → (s.gv a).toNat / 2 ^ 60 ≠ 8 →
      ∀ key, s.element s.who (s.gv a) 32 32 .read = .ok (.mem key) →
        let desc := portOfDesc (s.load key 8) (s.load (key + 8) 8) (s.load (key + 16) 8) (s.load (key + 24) 8)
        (s.ctx.answered = none → Asks (.sbind d a) s (.desc key 32)) ∧
        (∀ ans f, s.ctx.answered = some ans → s.dataFault key 32 ans.err.isSome = some f →
          exec (.sbind d a) s = .next (s.issues [a] [] fun t =>
            (if f.2 then t.foundError key 32 else t).modCtx fun c => c.addLate f.1 s.ctx.pc s.pair (s.gv a))) ∧
        (s.Answered → s.dataFault key 32 false = none →
          (s.ctx.portOf d ≠ none ∨ desc = none → Traps (.sbind d a) s ⟨0x30, 0, 0⟩) ∧
          ∀ p, s.ctx.portOf d = none → desc = some p → ∃ t, exec (.sbind d a) s = .next t ∧
            t.ctx.portOf d = some { p with no := s.ctx.binds, pc := s.ctx.pc, pair := s.pair } ∧
            t.ctx.pc = s.ctx.pc + 8 ∧ t.mem = s.mem)) ∧
    (∀ p, s.ctx.portOf d = some p → s.ctx.g[d].pending = true → Parks (.sunbind d) s .reg) ∧
    (∀ p, s.ctx.portOf d = some p → s.ctx.g[d].pending = false → (p.wr = false ∨ p.fifo = []) →
      ∃ t, exec (.sunbind d) s = .next t ∧ t.ctx.portOf d = none ∧ t.mem = s.mem ∧
        (p.wr = false → t.ctx.g[d].d = true) ∧
        (p.wr = true → t.ctx.g[d].f = true ∧ t.ctx.g[d].d = false ∧ t.ctx.g[d].val = s.ctx.g[d].val)) ∧
    (∀ p, s.ctx.portOf d = some p → s.ctx.g[d].pending = false → p.wr = true → p.fifo ≠ [] → Parks (.sunbind d) s .mem) ∧
    (s.ctx.portOf d = none → exec (.sunbind d) s = .next (s.issues [] [] id)) ∧
    (s.rdt = false → IssuesG (.sstat a d) s [] a ((match s.ctx.portOf d with
      | none => 0
      | some p => BitVec.ofNat 64 (2 ^ 63 + p.wr.toNat * 2 ^ 62 + p.fifo.length % 16 * 2 ^ 58 + (p.count - p.pos))), 0))

/-- R16, R169: a register with a read port gives the oldest element of its FIFO and pops it; one with a write port
takes a result as its newest element. A read of a write port, a write to a read port and a read past the end fault
STREAM. That a write port takes elements past COUNT, and that the first read of an element that an engine has fed waits for every
earlier access, are read from the spec by inference (log 40). R15, R177, R178: REGPUT sends its value to a register of another slot of its region; EMPTYR empties a
register. -/
def Obligations.PortsAndRegisterFills : Prop :=
  (∀ (s : State) (g : GIx) (k : Fin 4) (p : Port) (v : Word), s.rdt = false → portIx g = some k → s.ctx.ports[k] = some p →
    (p.wr = false → ∀ e rest, p.fifo = e :: rest → s.gv g = e.val ∧
      s.readGate g = (if p.base = 0 ∧ s.plainBlocked = true then .park else .ok) ∧ (s.popped = [] →
      (s.readG g).ctx.ports[k] = some { p with fifo := rest, pos := p.pos + 1 } ∧ (s.readG g).ctx.g = s.ctx.g)) ∧
    (p.wr = false → p.fifo = [] → p.count ≤ p.pos → s.readGate g = .trap ⟨0x30, 0, 0⟩) ∧
    (p.wr = false → p.fifo = [] → p.pos < p.count → p.base = 0 → s.readGate g = .park) ∧
    (s.ctx.g[g].pending = true → s.writeGate g = .park ∧ (p.wr = true → s.readGate g = .park)) ∧
    (s.ctx.g[g].pending = false → (p.wr = true → s.readGate g = .trap ⟨0x30, 0, 0⟩) ∧
      (p.wr = false → s.writeGate g = .trap ⟨0x30, 0, 0⟩) ∧ (p.wr = true → p.fifo.length < 8 → s.writeGate g = .ok) ∧
      (p.wr = true → 8 ≤ p.fifo.length → s.writeGate g = .park)) ∧
    (p.wr = true → (s.writeG g v).ctx.ports[k] = some { p with
      fifo := p.fifo ++ [s.ctx.elem v s.ctx.pc s.pair], pos := p.pos + 1 })) ∧
  (∀ (s : State) (a b d : GIx),
    (s.rdt = false → s.Open [a, b] [] [] [] → s.plainBlocked = false → s.heldRel = false →
      let t := (s.gv a).toNat
      let core := t % 2 ^ 11
      let slot : Fin 16 := Fin.ofNat 16 (t / 2 ^ 23)
      let reg : GIx := Fin.ofNat 16 (t / 2 ^ 27)
      (t / 2 ^ 31 ≠ 0 → Traps (.regput a b) s ⟨0x04, 0, 0⟩) ∧
      (t / 2 ^ 31 = 0 → (t / 2 ^ 11 % 2 ^ 12 ≠ s.hub.peer.toNat ∨ s.inCoreSet s.ctx.rcb core = false ∨
        (core = s.core ∧ slot = s.slot)) → Traps (.regput a b) s ⟨0x06, 0, 0⟩) ∧
      (t / 2 ^ 31 = 0 → t / 2 ^ 11 % 2 ^ 12 = s.hub.peer.toNat → s.inCoreSet s.ctx.rcb core = true →
        (core ≠ s.core ∨ slot ≠ s.slot) →
        exec (.regput a b) s = .next (parkAfter true (s.issues [a, b] [] fun u =>
          u.startAcc (.fill core slot reg (s.gv b)) true)))) ∧
    (s.ctx.portOf d = none → s.ctx.g[d].pending = false → ∃ t, exec (.emptyr d) s = .next t ∧
      t.ctx.g[d] = { s.ctx.g[d] with f := false, d := false, tag := none } ∧ (∀ e, e ≠ d → t.ctx.g[e] = s.ctx.g[e]) ∧
      t.mem = s.mem ∧ t.ctx.pc = s.ctx.pc + 8) ∧
    (s.ctx.portOf d = none → s.ctx.g[d].pending = true → Parks (.emptyr d) s .reg) ∧
    (∀ p, s.ctx.portOf d = some p → s.ctx.g[d].pending = false → Traps (.emptyr d) s ⟨0x30, 0, 0⟩))

/-! ### Tiles (07, 08) -/

/-- R50, R137: a full queue parks the slot in state 5 before any fault. R136: the checks that every tile instruction makes on
the tiles it names, in their order, of a task that is not redundant: the matrix unit, the owner, the configuration; then the
lock parks the slot in state 9, before the instruction's own checks. -/
def Obligations.TileChecksInOrder : Prop :=
  ∀ (s : State) (ts : List TIx) (cfg lock : Bool) (own : Option Trap) (f : State → State), s.rdt = false →
    let p := tilePlan s ts cfg lock own (.act f)
    let mine : TIx → Prop := fun t => s.cur.shapes[t].inuse = true → s.cur.shapes[t].owner = BitVec.ofNat 4 s.slot.val
    (4 ≤ s.cur.mxq.length → issueOne p s = s.enter .matrix) ∧
    (s.cur.mxq.length < 4 →
      (s.nomx = true → issueOne p s = s.trapNow ⟨0x1A, 0, 0⟩) ∧
      (s.nomx = false → (∃ t ∈ ts, ¬mine t) → issueOne p s = s.trapNow ⟨0x06, 0, 0⟩) ∧
      (s.nomx = false → (∀ t ∈ ts, mine t) → cfg = true → (∃ t ∈ ts, s.cur.shapes[t].cfg = false) →
        issueOne p s = s.trapNow ⟨0x18, 0, 0⟩) ∧
      (s.nomx = false → (∀ t ∈ ts, mine t ∧ (cfg = true → s.cur.shapes[t].cfg = true)) →
        (lock = true → (∃ t ∈ ts, s.cur.locked t = true) → issueOne p s = s.enter .tileLock) ∧
        ((lock = true → ∀ t ∈ ts, s.cur.locked t = false) →
          (∀ t, own = some t → issueOne p s = s.trapNow t) ∧ (own = none → issueOne p s = (f s.commitStart).advance))))

/-- R136 to R148: what a tile instruction does at issue, of a task that is not redundant, once its checks are past: its
request joins the queue of its core, and the shape changes at once. A TREL of a tile that is not configured does nothing; that it
is then no request is the model's choice (log 49). -/
def Obligations.TileInstructionsIssue : Prop :=
  ∀ (s : State) (td ta : TIx) (v : VIx) (a b : GIx), s.rdt = false → s.cur.mxq.length < 4 → s.nomx = false →
    let h := s.cur.shapes[td]
    let ready : List TIx → Bool → Bool → Prop := fun ts cfg lock => ∀ t ∈ ts,
      (s.cur.shapes[t].inuse = true → s.cur.shapes[t].owner = BitVec.ofNat 4 s.slot.val) ∧
      (cfg = true → s.cur.shapes[t].cfg = true) ∧ (lock = true → s.cur.locked t = false)
    let w := (s.gv a).toNat
    let x := (s.gv b).toNat
    (ready [td] false true → s.Open [a] [] [] [] → s.reservedTile td = false → h.saving = false → w < 2 ^ 10 →
      let new : Shape := { rows := BitVec.ofNat 4 w, cols := BitVec.ofNat 4 (w / 16), typ := BitVec.ofNat 2 (w / 256)
                           cfg := true, inuse := true, dirty := h.dirty, owner := BitVec.ofNat 4 s.slot.val }
      let same := h.cfg && typeWidth h.typ == typeWidth new.typ
      let new' := if same then new else { new with dirty := false }
      exec (.tcfg td a) s = .next (s.issues [a] [] fun u =>
        (u.setShape td new' (if same then s.cur.zero[td] else true)).enqueue s.ctx
          (.tcfg td (if same then some (h, new) else none)) new' .matrix none)) ∧
    (ready [td] true true → exec (.tzero td) s = .next (s.issues [] [] fun u =>
      (u.setShape td { h with dirty := false } true).enqueue s.ctx (.tzero td) h .matrix none)) ∧
    (ready [td] true true → exec (.trel td) s = .next (s.issues [] [] fun u =>
      (u.setShape td Shape.init true).enqueue s.ctx (.trel td) h .matrix none)) ∧
    (ready [td] false true → h.cfg = false → exec (.trel td) s = .next (s.issues [] [] id)) ∧
    (s.Open [a] [] [] [] → 1 ≤ w % 16 → w % 16 ≤ 8 → 1 ≤ w / 16 % 16 → w / 16 % 16 ≤ 8 → 1 ≤ w / 2 ^ 8 → w / 2 ^ 8 ≤ 64 →
      exec (.mfmt a) s = .next (s.issues [a] [] fun u => u.modCur fun c => { c with mfmt := BitVec.ofNat 15 w })) ∧
    (ready [td] true false → s.Open [a, b] [] [] [] →
      (mmaFault s h false (s.gv a) (s.gv b) = none → exec (.mma td a b) s = .next (s.issues [a, b] [] fun u =>
        (u.setShape td { h with dirty := true } false).enqueue s.ctx (.mma td w x) h .matrix none)) ∧
      (mmaFault s h true (s.gv a) (s.gv b) = none → exec (.mmai td a b) s = .next (s.issues [a, b] [] fun u =>
        (u.setShape td { h with dirty := true } false).enqueue s.ctx (.mmai td w x) h .matrix none))) ∧
    (ready [td] true true → s.Open [b] [] [] [v] →
      (x ≤ h.rows.toNat → exec (.trowr v td b) s = .next (s.issues [b] [] fun u =>
        (u.enqueue s.ctx (.trowr v td (Fin.ofNat 16 x)) h .matrix none).modCtx (·.pendV v s.seq))) ∧
      (x ≤ h.cols.toNat → exec (.tcolr v td b) s = .next (s.issues [b] [] fun u =>
        (u.enqueue s.ctx (.tcolr v td (Fin.ofNat 16 x)) h .matrix none).modCtx (·.pendV v s.seq)))) ∧
    (ready [td] true true → s.Open [b] [v] [] [] →
      (x ≤ h.rows.toNat → exec (.troww td v b) s = .next (s.issues [b] [v] fun u =>
        (u.setShape td { h with dirty := true } false).enqueue s.ctx (.troww td (Fin.ofNat 16 x) (s.vv v)) h .matrix none)) ∧
      (x ≤ h.cols.toNat → exec (.tcolw td v b) s = .next (s.issues [b] [v] fun u =>
        (u.setShape td { h with dirty := true } false).enqueue s.ctx (.tcolw td (Fin.ofNat 16 x) (s.vv v)) h .matrix none))) ∧
    (s.Open [] [] [a] [] → exec (.tstat a td) s = .next (s.issues [] [] fun u => u.writeG a (s.cur.shapeWord td))) ∧
    (ready [td, ta] true true → exec (.ttrans td ta) s = .next (s.issues [] [] fun u =>
      (u.setShape td { h with rows := s.cur.shapes[ta].cols, cols := s.cur.shapes[ta].rows, typ := s.cur.shapes[ta].typ
                              dirty := true } s.cur.zero[ta]).enqueue s.ctx (.ttrans td ta) s.cur.shapes[ta] .matrix none))

/-- R172, R174: TLD and TST of a task that is not redundant: every position of the shape, row by row, at base plus row
times stride plus column times element size. The stride is a multiple of the element size, else FORMAT. R173: the
bounded forms read a descriptor, whose home is asked first, and a position outside the tensor is filled by TLD and left out by
TST. The order of these checks, of the descriptor and of the wait for room in the queue, which holds back a fault too, is the
model's reading of R50 and R173 (log 49). R48: a load joins the queue after the other slot has read its tile (log 58). -/
def Obligations.TileLoadsIssue : Prop :=
  (∀ (s : State) (td : TIx) (a b : GIx), s.rdt = false → s.nomx = false → s.Open [a, b] [] [] [] →
    let h := s.cur.shapes[td]
    let esz : Nat := if h.typ.toNat < 2 then 4 else 2
    let ps := (List.range (h.rows.toNat + 1)).flatMap fun (r : Nat) => (List.range (h.cols.toNat + 1)).map fun (c : Nat) =>
      s.gv a + BitVec.ofNat 64 r * s.gv b + BitVec.ofNat 64 (c * esz)
    (h.inuse = true → h.owner = BitVec.ofNat 4 s.slot.val) → h.cfg = true → s.cur.locked td = false →
    s.heldAll = false → s.heldRel = false → s.cur.mxq.length < 4 →
    ((s.gv b).toNat % esz ≠ 0 → Traps (.tld td a b) s ⟨0x1B, 0, 0⟩ ∧ Traps (.tst td a b) s ⟨0x1B, 0, 0⟩) ∧
    ((s.gv b).toNat % esz = 0 →
      (∀ els, tileHomes s esz true (ps.map some) = .ok els → exec (.tld td a b) s = .next
        (((s.issues [a, b] [] id).setShape td { h with dirty := true } false).enqueue s.ctx (.tld td esz els ps 0) h
          (.tile · true) none)) ∧
      (∀ els, tileHomes s esz false (ps.map some) = .ok els → exec (.tst td a b) s = .next (s.issues [a, b] [] fun u =>
        u.enqueue s.ctx (.tst td esz els ps) h (.tile · false) none)))) ∧
  (∀ (s : State) (td : TIx) (a b : GIx) (key : Nat), s.rdt = false → s.nomx = false → s.Open [a, b] [] [] [] →
    let h := s.cur.shapes[td]
    let esz : Nat := if h.typ.toNat < 2 then 4 else 2
    let row : Int := ((s.gv b).extractLsb' 0 32).toInt
    let col : Int := ((s.gv b).extractLsb' 32 32).toInt
    let ps : Tensor → List (Option Word) := fun x =>
      (List.range (h.rows.toNat + 1)).flatMap fun (r : Nat) => (List.range (h.cols.toNat + 1)).map fun (c : Nat) =>
        if 0 ≤ row + r ∧ row + r < x.rows ∧ 0 ≤ col + c ∧ col + c < x.cols then
          some (x.base + BitVec.ofInt 64 (row + r) * x.stride + BitVec.ofInt 64 ((col + c) * esz)) else none
    (h.inuse = true → h.owner = BitVec.ofNat 4 s.slot.val) → h.cfg = true → s.cur.locked td = false → s.plainBlocked = false →
    s.heldAll = false → s.heldRel = false →
    (s.gv a).toNat / 2 ^ 60 ≠ 8 → s.element s.who (s.gv a) 32 32 .read = .ok (.mem key) →
    (s.ctx.answered = none → Asks (.tldBd td a b) s (.desc key 32) ∧ Asks (.tstBd td a b) s (.desc key 32)) ∧
    (s.Answered → s.dataFault key 32 false = none →
      (s.cur.mxq.length < 4 → s.tensorAt key esz = none → Traps (.tldBd td a b) s ⟨0x1B, 0, 0⟩ ∧ Traps (.tstBd td a b) s ⟨0x1B, 0, 0⟩) ∧
      (4 ≤ s.cur.mxq.length →
        Parks (.tldBd td a b) s .matrix ∧ Parks (.tstBd td a b) s .matrix) ∧
      ∀ x, s.tensorAt key esz = some x → s.cur.mxq.length < 4 →
        (∀ els, tileHomes s esz true (ps x) = .ok els → exec (.tldBd td a b) s = .next
          (((s.issues [a, b] [] id).setShape td { h with dirty := true } false).enqueue s.ctx
            (.tld td esz els ((ps x).map (·.getD 0)) x.fill) h (.tile · true) none)) ∧
        (∀ els, tileHomes s esz false (ps x) = .ok els → exec (.tstBd td a b) s = .next (s.issues [a, b] [] fun u =>
          u.enqueue s.ctx (.tst td esz els ((ps x).map (·.getD 0))) h (.tile · false) none))))

/-! ### Engine commands, mailbox, schedule, migration (08, 10) -/

/-- R209 to R211, R231: CPYQ and IORD of a task that is not redundant. A command with a bad word faults whatever the
FIFO holds. With room it takes the next number of its engine context, which W3's register receives; a full FIFO parks
the blocking form and clears the predicate of the other. R153, R210: a bounded source is read first: its home is asked, and
the command is decided once it has answered; the order of these checks is the model's reading (log 21). R175: TPLANE of a task
that is not redundant: its checks in the order that R175 gives, and the operation that starts at once; that it takes no entry of
the FIFO is the model's reading (log 44). R167: a command that a release fence holds back parks in state 3. -/
def Obligations.EngineAndPlaneCommandsIssue : Prop :=
  (∀ (s : State) (a d b : GIx) (p : PIx) (q : Fin 8), s.rdt = false → s.heldRel = true →
    (s.Open [a, Fin.ofNat 16 (a.val + 1), Fin.ofNat 16 (a.val + 2), Fin.ofNat 16 (a.val + 3)] [] [Fin.ofNat 16 (a.val + 3)] [] →
      ∀ i ∈ [Instr.cpyqWt a, .cpyqBz p a, .iordWt a, .iordBz p a], Parks i s .mem) ∧
    (s.Open (if (s.gv b).getLsbD 4 then [d, a, b, a + 1] else [d, a, b]) [] [] [] → Parks (.tplane q d a b) s .mem)) ∧
  (∀ (s : State) (a : GIx) (p : PIx), s.rdt = false → s.heldRel = false →
    let r : Nat → GIx := fun k => Fin.ofNat 16 (a.val + k)
    let gs := [a, r 1, r 2, r 3]
    let w3 := s.gv (r 3)
    let answered : Option (Home × Nat) → Prop := fun d => match d with
      | none => True
      | some (.mem key, n) => s.Answered ∧ s.dataFault key n false = none
      | some (.fab _ _, _) => s.Answered
    let goes : Instr → Instr → Except Trap EngCheck → Prop := fun wt bz c => s.Open gs [] [r 3] [] →
      (∀ t, c = .error t → Traps wt s t ∧ Traps bz s t) ∧
      (∀ key n x, c = .ok (some (.mem key, n), x) → s.ctx.answered = none → Asks wt s (.desc key n) ∧ Asks bz s (.desc key n)) ∧
      (∀ q o n x, c = .ok (some (.fab q o, n), x) → s.ctx.answered = none →
        (s.tagBusy = false → Asks wt s (.peer q o n) ∧ Asks bz s (.peer q o n)) ∧
        (s.tagBusy = true → Parks wt s .mem ∧ Parks bz s .mem)) ∧
      (∀ d t, c = .ok (d, .error t) → answered d → Traps wt s t ∧ Traps bz s t) ∧
      ∀ d k, c = .ok (d, .ok k) → answered d →
        let e := if w3.getLsbD 39 then Fin.ofNat 4 (w3.toNat / 2 ^ 37 % 4) else Fin.ofNat 4 s.ctx.ecxsel.toNat
        let n := BitVec.ofNat 64 (s.cur.ecx[e].issued + 1)
        let take : State → State := fun t => (t.issueEng e k false (w3.getLsbD 40)).writeG (r 3) n
        ((s.cur.engs.filter fun o => !o.started).length < 8 →
          exec wt s = .next (s.issues gs [] take) ∧ exec bz s = .next (s.issues gs [] fun t => (take t).writeP p true)) ∧
        (8 ≤ (s.cur.engs.filter fun o => !o.started).length →
          Parks wt s .mem ∧ exec bz s = .next (s.issues gs [] fun t => t.writeP p false))
    ((w3.toNat / 2 ^ 46 % 4 = 2 → s.plainBlocked = false) →
      goes (.cpyqWt a) (.cpyqBz p a) (cpyqCheck s (s.gv a) (s.gv (r 1)) (s.gv (r 2)) w3)) ∧
    goes (.iordWt a) (.iordBz p a) (iordCheck s (s.gv a) (s.gv (r 1)) (s.gv (r 2)) w3)) ∧
  (∀ (s : State) (p : Fin 8) (d a b : GIx), s.rdt = false → s.heldRel = false →
    let w := (s.gv b).toNat
    let mx := w / 16 % 2 = 1
    let gs := if (s.gv b).getLsbD 4 then [d, a, b, a + 1] else [d, a, b]
    let fmt := w % 16
    let esz := if fmt = 0 then 4 else if fmt ≤ 2 then 2 else 1
    let dst := (s.gv d).toNat
    let good := fmt ≤ 6 ∧ (mx → 3 ≤ fmt) ∧ w / 64 % 2 ^ 10 = 0 ∧ w / 2 ^ 31 % 2 = 0 ∧ w / 2 ^ 32 % esz = 0
    s.Open gs [] [] [] →
      (s.nomx = true → Traps (.tplane p d a b) s ⟨0x1A, 0, 0⟩) ∧
      (s.nomx = false → ¬good → Traps (.tplane p d a b) s ⟨0x1B, 0, 0⟩) ∧
      (s.nomx = false → good →
        (2 ^ 21 ≤ dst → Traps (.tplane p d a b) s ⟨0x04, s.gv d, 0⟩) ∧
        (dst < 2 ^ 21 → dst % 4 ≠ 0 → Traps (.tplane p d a b) s ⟨0x07, s.gv d, 0⟩) ∧
        (dst % 4 = 0 → dst + (w / 2 ^ 16 % 2 ^ 8 + 1) * (w / 2 ^ 24 % 2 ^ 7 + 1) * (4 * (p.val + 2)) ≤ 2 ^ 21 →
          (s.gv a).toNat / 2 ^ 60 ≠ 8 → (mx → (s.gv (a + 1)).toNat / 2 ^ 60 ≠ 8) →
          s.padAllowed (clusterOfCore s.core) s.ctx.rcb = true →
          exec (.tplane p d a b) s = .next (s.issues gs [] fun t => t.issueEng (Fin.ofNat 4 s.ctx.ecxsel.toNat)
            (.plane (s.gv d) (s.gv a) (if (s.gv b).getLsbD 4 then s.gv (a + 1) else 0) (s.gv b) (p.val + 1) s.ctx.rnd)
            true false))))

/-- R215, R216, R232: WFM, MBRD and SCNEXT of a task that is not redundant. -/
def Obligations.MailboxAndSchedule : Prop :=
  ∀ (s : State) (d b : GIx) (q : PIx), s.rdt = false →
    let sel := s.gv b
    let mask := sel.extractLsb' 16 16
    let hit : Word × Word → Bool := fun e => (e.1.extractLsb' 32 16 &&& mask) == (sel.extractLsb' 0 16 &&& mask)
    (s.Open [b] [] [d] [] →
      (2 ^ 32 ≤ sel.toNat → Traps (.wfm d b) s ⟨0x1B, 0, 0⟩) ∧
      (sel.toNat < 2 ^ 32 → s.ctx.minRank = 0 → Traps (.wfm d b) s ⟨0x10, 0, 0⟩) ∧
      (sel.toNat < 2 ^ 32 → s.ctx.minRank ≠ 0 →
        (s.cur.mailbox.any hit = true → exec (.wfm d b) s = .next (s.issues [b] [] fun t => t.writeG d 0)) ∧
        (s.cur.mailbox.any hit = false → s.cur.pending = 0 →
          Traps (.wfm d b) s ⟨0x12, 0, BitVec.ofNat 64 (s.ctx.minRank % 2 ^ 32)⟩) ∧
        (s.cur.mailbox.any hit = false → s.cur.pending ≠ 0 →
          exec (.wfm d b) s = .next (((s.issues [b] [] id).modCtx fun c => { c with
            wait := some { on := .mbox (sel.extractLsb' 0 16) mask, dst := some d, sh := false, pc := s.ctx.pc, pair := s.pair } }).enter
              .mailbox)))) ∧
    (s.Open [b] [] [d, d + 1] [] → sel.toNat < 2 ^ 32 →
      (∀ e, s.cur.mailbox.find? hit = some e → exec (.mbrd d b) s = .next (s.issues [b] [] fun t =>
        ((t.modCur fun c => { c with mailbox := s.cur.mailbox.eraseP hit }).writeG d e.1).writeG (d + 1) e.2)) ∧
      (s.cur.mailbox.find? hit = none →
        exec (.mbrd d b) s = .next (s.issues [b] [] fun t => (t.writeG d 0).writeG (d + 1) 0))) ∧
    (s.Open [] [] [d] [] →
      (∀ l v, s.cur.sched = some l → l.rcb = s.ctx.rcb → l.list[l.cursor]? = some v →
        exec (.scnext q d) s = .next (s.issues [] [] fun t =>
          ((t.modCur fun c => { c with sched := some { l with cursor := l.cursor + 1 } }).writeG d v).writeP q true)) ∧
      ((∀ l, s.cur.sched = some l → l.rcb ≠ s.ctx.rcb ∨ l.list.length ≤ l.cursor) →
        exec (.scnext q d) s = .next (s.issues [] [] fun t => (t.writeG d 0).writeP q false)))

/-- R219, R220: MIGR of a task that is not redundant: a port that is bound or a tile that is held faults MIGRATE_STATE;
at the core that owns the address the thread only settles; else it settles and leaves as a kid packet, which a free slot
of the destination takes with the registers of R34, unless a waiter may claim one (R340); an RDT task's does so once its trailing copy has ended too (R381). -/
def Obligations.Migration : Prop :=
  ∀ (s : State) (a : GIx), s.rdt = false → s.Open [a] [] [] [] →
    let held := (∃ k : Fin 4, s.ctx.ports[k].isSome = true) ∨
      (∃ t : TIx, s.cur.shapes[t].inuse = true ∧ s.cur.shapes[t].owner = BitVec.ofNat 4 s.slot.val)
    (∀ t, s.migrTarget (s.gv a) = .error t → Traps (.migr a) s t) ∧
    (∀ n, s.migrTarget (s.gv a) = .ok n →
      (held → Traps (.migr a) s ⟨0x31, 0, 0⟩) ∧
      (¬held → n = s.core → exec (.migr a) s = .next ((s.issues [a] [] id).settleIf true)) ∧
      (¬held → n ≠ s.core → exec (.migr a) s =
        .next ((((s.issues [a] [] id).modCtx fun c => { c with cont := .migrate n s.ctx.pc s.pair }).enter .settle).settled
          s.core s.slot))) ∧
    (∀ (m : Nat) (x : Access) (dest : Nat) (j : Fin 16), (s.ctxAt (m / 16) (Fin.ofNat 16 m)).accs = [x] → x.op = .migrate dest →
      (s.isRdt (s.ctxAt (m / 16) (Fin.ofNat 16 m)).rcb = true → (s.slotAt (m / 16) (trailSlot (Fin.ofNat 16 m))).st = .ending) →
      (s.coreAt dest).contained = false → s.prioritiesFor dest = [] → s.claimable dest (s.ctxAt (m / 16) (Fin.ofNat 16 m)).rcb = some j →
      let c := s.ctxAt (m / 16) (Fin.ofNat 16 m)
      exec (.migrationArrival m) s = .next ((s.vacate (m / 16) (Fin.ofNat 16 m)).seat dest j .ready c.arrive) ∧
      c.arrive.tid = c.tid ∧ c.arrive.pc = c.pc ∧ c.arrive.pw = c.pw ∧ c.arrive.obls = c.obls ∧ c.arrive.sstat = c.sstat ∧
      (∀ d : GIx, d.val < 10 → c.arrive.g[d] = { c.g[d] with val := if c.g[d].d then 0 else c.g[d].val, tag := none }) ∧ (∀ d : GIx, 10 ≤ d.val → c.arrive.g[d].d = true) ∧
      (∀ v : VIx, c.arrive.v[v].d = true) ∧ c.arrive.lm = BitVec.allOnes 64)

/-! ### Sync objects (09) -/

/-- R179: a record written and read back. -/
def Obligations.ObjectRecordRoundTrip : Prop :=
  ∀ (s : State) (key : Nat) (o : SObj) (die : Nat), s.Sound → spaceOf key = .dram die → key % 64 = 0 →
    s.poison.contains key = false →
    o.rank < 2 ^ 32 → o.pcode < 2 ^ 8 → o.kind < 16 → o.value < 2 ^ 64 → o.phase < 2 ^ 32 → o.count < 2 ^ 16 →
    o.arrived < 2 ^ 16 → o.owed < 2 ^ 32 → o.wdie < 16 → o.wcnt < 2 ^ 32 →
    (s.putObj key o).obj key = o ∧ (s.putObj key o).Sound ∧
    ∀ x, x < key ∨ key + 40 ≤ x → (s.putObj key o).byte x = s.byte x

/-- R180, R192 to R195: the conditions of waits, and what SIGNAL, an arrival and POISON make of a record and of the
holder's registry entry. R181, R330: an instruction on an object refuses its address in this order: a peer's address,
the checks of every access, a home that holds no objects, data that cannot be read, and a record that is no object. That data
which cannot be read refuse it precisely, and stand there in the order, is the model's reading (log 42). -/
def Obligations.ObjectRules : Prop :=
  (∀ (o : SObj) (e : Obl) (t : Word) (v c : Nat),
    (o.kind ≠ 2 → (o.cond t = true ↔ t.toNat ≤ o.value) ∧ (o.unowed = true ↔ o.owed = 0)) ∧
    (o.kind = 2 → o.phase < 2 ^ 32 → t.toNat < 2 ^ 32 →
      (o.cond t = true ↔ 1 ≤ (o.phase + 2 ^ 32 - t.toNat) % 2 ^ 32 ∧ (o.phase + 2 ^ 32 - t.toNat) % 2 ^ 32 ≤ 2 ^ 31) ∧
      (o.unowed = true ↔ o.owed < o.count ∨ o.count = 0)) ∧
    (o.kind = 0 → o.poisoned = false → signalObj o e v = ({ o with value := max o.value v, owed := o.owed - 1 }, { e with m := e.m - 1 })) ∧
    (o.kind = 1 → o.poisoned = false →
      signalObj o e v = ({ o with value := (o.value + v) % 2 ^ 64, owed := o.owed - 1 }, { e with m := e.m - 1 })) ∧
    (o.kind = 3 → o.poisoned = false →
      signalObj o e v = ({ o with value := (o.value + 1) % 2 ^ 64, owed := o.owed - 1 }, { e with m := e.m - 1 })) ∧
    (o.kind ≠ 2 → o.poisoned = true → signalObj o e v = ({ o with owed := o.owed - 1 }, { e with m := e.m - 1 })) ∧
    (o.kind ≠ 2 → o.poisoned = false →
      poisonObj o e c = ({ o with poisoned := true, pcode := c, owed := o.owed - 1 }, { e with m := e.m - 1 })) ∧
    (o.kind ≠ 2 → o.poisoned = true → poisonObj o e c = ({ o with owed := o.owed - 1 }, { e with m := e.m - 1 })) ∧
    (o.kind = 2 → e.ph.toNat = o.phase → e.ar = 0 → 1 < o.count → o.arrived ≠ o.count - 1 →
      signalObj o e v = ({ o with count := o.count - 1, owed := o.owed - 1 }, { e with m := e.m - 1 })) ∧
    (o.kind = 2 → e.ph.toNat = o.phase → e.ar = 0 → 1 < o.count → o.arrived = o.count - 1 →
      signalObj o e v = ({ o with count := o.count - 1, owed := o.owed - 1, phase := (o.phase + 1) % 2 ^ 32, arrived := 0 },
        { e with m := e.m - 1 })) ∧
    (e.ph.toNat = o.phase → o.arrived + 1 ≠ o.count → arriveObj o e = ({ o with arrived := o.arrived + 1 }, { e with ar := e.ar + 1 })) ∧
    (e.ph.toNat = o.phase → o.arrived + 1 = o.count →
      arriveObj o e = ({ o with arrived := 0, phase := (o.phase + 1) % 2 ^ 32 }, { e with ar := e.ar + 1 }))) ∧
  (∀ (s : State) (w : Who) (p : Word) (k : AccKind),
    (p.toNat / 2 ^ 60 = 8 → s.objAt w p k false = .error ⟨0x04, p, 0⟩) ∧
    (p.toNat / 2 ^ 60 ≠ 8 → ∀ t, s.element w p 64 64 k = .error t → s.objAt w p k false = .error t) ∧
    ∀ key, p.toNat / 2 ^ 60 ≠ 8 → s.element w p 64 64 k = .ok (.mem key) →
      (objHome key = false → s.objAt w p k false = .error ⟨0x06, p, 0⟩) ∧
      (objHome key = true → ∀ f, s.dataFault key 64 false = some f → s.objAt w p k false = .error ⟨f.1, p, 0⟩) ∧
      (objHome key = true → s.dataFault key 64 false = none →
        s.objAt w p k false = if (s.obj key).kind ≤ 5 ∧ (s.obj key).rank ≠ 0xFFFFFFFF then .ok key else .error ⟨0x06, p, 0⟩))

/-- R187, R189 to R192, R194, R195, R200, R201: the instructions that create an object or change it without waiting, of a
task that is not redundant. The home is asked first (R187). Once it has answered, the registry of the task and the object
change together, the waiters are checked, and idle herd runs bound to the object take a new snapshot (R257). -/
def Obligations.ObjectInstructions : Prop :=
  ∀ (s : State) (k : ObjKind) (d a b : GIx) (code : BitVec 8) (key : Nat), s.rdt = false → s.plainBlocked = false →
    let o := s.obj key
    let obls := s.ctx.obls
    let found := obls.find? fun e => e.ref == .local_ key
    let write := s.objAt s.who (s.gv a) .write false = .ok key
    let acts : Instr → List GIx → (State → State) → Prop := fun i gs f =>
      exec i s = .next (s.issues gs [] fun t => f (t.pokeIdle key).count3)
    let own := s.windowOwner 64 s.ctx.rcb
    let stopped : BitVec 8 → Trap := fun c => ⟨c, s.gv a, BitVec.ofNat 64 (o.rank % 2 ^ 32 * 2 ^ 32 + s.ctx.minRank % 2 ^ 32)⟩
    (s.ctx.answered = none → s.objKey s.who (s.gv a) .write = .ok key →
      (s.Open [a] [] [] [] → Asks (.oblige a) s .home ∧ Asks (.arrive a) s .home ∧
        ((code.toNat < 0xF0 ∨ s.ctx.mode = true) → Asks (.poison a code) s .home)) ∧
      (s.Open [a, b] [] [] [] → Asks (.signal a b) s .home ∧ Asks (.xfer a b) s .home) ∧
      (s.Open [a, b] [] [d] [] → Asks (.obnew k d a b) s .home)) ∧
    (s.ctx.answered = none → s.Open [a] [] [d] [] → s.objKey s.who (s.gv a) .read = .ok key → Asks (.obqry d a) s .home) ∧
    (s.ctx.answered = none → s.Open [b] [] [d] [] → Asks (.rnkwin d b) s .home) ∧
    (0xF0 ≤ code.toNat → s.ctx.mode = false → s.Open [a] [] [] [] → Traps (.poison a code) s ⟨0x02, 0, 0⟩) ∧
    (s.Answered →
    (s.Open [a, b] [] [d] [] → s.objAt s.who (s.gv a) .write true = .ok key →
      (o.valid = true → o.owed = 0 ∧ o.wcnt = 0) → (k = .barrier → 0 < (s.gv b).toNat ∧ (s.gv b).toNat ≤ 65535) →
      s.nextChild own < s.dynTop own →
      acts (.obnew k d a b) [a, b] fun t => ((t.store (own.toNat + 0x50) 4 (s.dynTop own - 1)).newObj key
        (freshObj (kindCode k) (s.dynTop own - 1) (s.gv b).toNat)).writeG d (BitVec.ofNat 64 (s.dynTop own - 1))) ∧
    (s.Open [b] [] [d] [] → 0 < (s.gv b).toNat → (s.gv b).toNat ≤ 2 ^ 31 → s.nextChild own + (s.gv b).toNat ≤ s.dynTop own →
      exec (.rnkwin d b) s = .next (s.issues [b] [] fun t =>
        (t.count3.store (own.toNat + 0x4C) 4 (s.nextChild own + (s.gv b).toNat)).writeG d (BitVec.ofNat 64 (s.nextChild own)))) ∧
    (s.Open [a] [] [] [] → write →
      (o.fabricKind = false → (o.kind = 2 → o.owed ≠ o.count) → registryRoom obls (.local_ key) = true →
        acts (.oblige a) [a] fun t => (t.setObls (addObl obls key (s.gv a) o)).changeObj key { o with owed := o.owed + 1 }) ∧
      (o.fabricKind = false → (o.kind = 2 ∧ o.owed = o.count) → Traps (.oblige a) s (stopped 0x14)) ∧
      (o.fabricKind = false → o.kind = 2 → o.poisoned = false → ∀ e, found = some e → (e.sync o).ar < (e.sync o).m →
        acts (.arrive a) [a] fun t => (t.setObls (putObl obls (arriveObj o e).2)).changeObj key (arriveObj o e).1) ∧
      (o.fabricKind = false → found = none → Traps (.arrive a) s (stopped 0x11)) ∧
      (∀ e, found = some e → (code.toNat < 0xF0 ∨ s.ctx.mode = true) → acts (.poison a code) [a] fun t =>
        (t.setObls (putObl obls (poisonObj o e code.toNat).2)).changeObj key (poisonObj o e code.toNat).1)) ∧
    (s.Open [a, b] [] [] [] → write → o.fabricKind = false →
      (∀ e, found = some e → acts (.signal a b) [a, b] fun t =>
        (t.setObls (putObl obls (signalObj o e (s.gv b).toNat).2)).changeObj key (signalObj o e (s.gv b).toNat).1) ∧
      (found = none → Traps (.signal a b) s (stopped 0x11))) ∧
    (s.Open [a, b] [] [] [] → write → ∀ e n c tid, tid = (s.gv b).extractLsb' 0 48 → (s.gv b).toNat < 2 ^ 48 →
      s.taskCtx tid = some (n, c) → (∀ x ∈ c.accs, x.op ≠ .ask .home) → s.descends s.ctx.rcb 64 c.rcb = true → found = some e → s.waitRank c = none →
      registryRoom c.obls (.local_ key) = true → tid ≠ s.ctx.tid →
      acts (.xfer a b) [a, b] fun t => (t.setObls (moveObl obls c.obls e o).1).modTask tid fun x =>
        { x with obls := (moveObl obls c.obls e o).2 }) ∧
    (s.Open [a] [] [d] [] → s.objAt s.who (s.gv a) .read false = .ok key →
      acts (.obqry d a) [a] fun t => t.writeG d (BitVec.ofNat 64 (o.rank * 2 ^ 32 + o.poisoned.toNat * 2 ^ 31 +
        found.isSome.toNat * 2 ^ 30 + o.pcode * 2 ^ 16 + min o.owed 4095 * 16 + o.kind))))

/-- R183, R196 to R199, R221: the waits of a task that is not redundant. The home is asked first (R187). A wait whose rank is not below every
obligation held is refused; one that can complete does so at once; one whose object nobody owes is refused; else the
task parks in state 6, or gives its slot up. R217, R218: SEND of a task that is not redundant: the message waits at
its core for a slot, and the sender parks in state 3 until the claim. -/
def Obligations.WaitAndSendInstructions : Prop :=
  (∀ (s : State) (d a b : GIx) (n : Fin 4) (key : Nat), s.rdt = false → s.plainBlocked = false →
    let o := s.obj key
    let pc := s.ctx.pc
    let stopped : BitVec 8 → Trap := fun c => ⟨c, s.gv a, BitVec.ofNat 64 (o.rank % 2 ^ 32 * 2 ^ 32 + s.ctx.minRank % 2 ^ 32)⟩
    let waits : Instr → (State → State) → Prop := fun i park => s.Open [a, b] [] [d] [] →
      (s.ctx.answered = none → s.objKey s.who (s.gv a) .write = .ok key → Asks i s .home) ∧
      (s.Answered → s.objAt s.who (s.gv a) .write false = .ok key →
      (s.ctx.minRank ≤ o.rank → Traps i s (stopped 0x10)) ∧
      (o.rank < s.ctx.minRank →
        (o.poisoned = true → exec i s = .next (s.issues [a, b] [] fun t =>
          ((t.pokeIdle key).count3.raise Flag.poisonseen).writeG d (BitVec.ofNat 64 (o.pcode * 256 + 1)))) ∧
        (o.poisoned = false → o.cond (s.gv b) = true →
          exec i s = .next (s.issues [a, b] [] fun t => (t.pokeIdle key).count3.writeG d 0)) ∧
        (o.poisoned = false → o.cond (s.gv b) = false → o.unowed = true → Traps i s (stopped 0x12)) ∧
        (o.poisoned = false → o.cond (s.gv b) = false → o.unowed = false →
          exec i s = .next (park (s.issues [a, b] [] fun t => (t.pokeIdle key).count3)))))
    waits (.wait d a b) (·.parkWait key (s.gv b) d false false pc) ∧
    waits (.waitSh d a b) (·.parkWait key (s.gv b) d true false pc) ∧
    (s.cannotMove s.core s.slot = false → waits (.shelve d a b) (·.parkWait key (s.gv b) d false true pc)) ∧
    (s.cannotMove s.core s.slot = true → s.Open [a, b] [] [d] [] → Traps (.shelve d a b) s ⟨0x31, 0, 0⟩) ∧
    (s.Open [a] [] [d] [] → s.ctx.answered = none → s.objKey s.who (s.gv a) .write = .ok key → Asks (.waita d a) s .home) ∧
    (s.Open [a] [] [d] [] → s.Answered → s.objAt s.who (s.gv a) .write false = .ok key →
      ∀ e, (s.ctx.obls.find? fun x => x.ref == .local_ key) = some e → o.kind = 2 → o.poisoned = false →
        o.rank < minRank (s.ctx.obls.filter fun x => x.ref != .local_ key) → (e.sync o).ar < (e.sync o).m →
        let come : State → State := fun t => ((t.pokeIdle key).count3.setObls (putObl s.ctx.obls (arriveObj o e).2)).changeObj key (arriveObj o e).1
        (o.arrived + 1 < o.count → o.owed < o.count → Traps (.waita d a) s (stopped 0x12)) ∧
        (o.phase < 2 ^ 32 → o.arrived + 1 = o.count →
          exec (.waita d a) s = .next (s.issues [a] [] fun t => (come t).waitDone d 0 0)) ∧
        (o.arrived + 1 < o.count → o.count ≤ o.owed → exec (.waita d a) s =
          .next ((s.issues [a] [] come).parkWait key (BitVec.ofNat 64 o.phase) d false false pc))) ∧
    (s.Open [b] [] [] [] → s.ctx.minRank ≠ 0 →
      ((s.gv b).toNat ≤ (s.cur.ecx[n]).line → exec (.tlwait n b) s = .next (s.issues [b] [] id)) ∧
      ((s.cur.ecx[n]).line < (s.gv b).toNat → (s.cur.ecx[n]).issued < (s.gv b).toNat →
        Traps (.tlwait n b) s ⟨0x12, 0, BitVec.ofNat 64 (s.ctx.minRank % 2 ^ 32)⟩) ∧
      ((s.cur.ecx[n]).line < (s.gv b).toNat → (s.gv b).toNat ≤ (s.cur.ecx[n]).issued →
        exec (.tlwait n b) s = .next (((s.issues [b] [] id).modCtx fun c => { c with
          wait := some { on := .line n (s.gv b), dst := none, sh := false, pc := pc, pair := s.pair } }).enter .object)))) ∧
  (∀ (s : State) (n : Fin 8) (d a b : GIx) (core vec key : Nat), s.rdt = false → s.plainBlocked = false →
    let rs : List GIx := (List.range (n.val + 1)).map fun k => Fin.ofNat 16 (b.val + k)
    let t := (s.gv a).toNat
    (s.Open (a :: rs) [] [] [] →
      (t / 2 ^ 32 ≠ 0 ∨ t / 2 ^ 23 % 2 ≠ 0 → Traps (.send n a b) s ⟨0x04, 0, 0⟩) ∧
      (t / 2 ^ 32 = 0 → t / 2 ^ 23 % 2 = 0 → (t / 2 ^ 11 % 2 ^ 12 ≠ s.hub.peer.toNat ∨ s.inCoreSet s.ctx.rcb (t % 2 ^ 11) = false) →
        Traps (.send n a b) s ⟨0x06, 0, 0⟩) ∧
      (sendTarget s (s.gv a) = .ok (core, vec) → exec (.send n a b) s =
        .next (parkAfter true (s.issues (a :: rs) [] (·.sendMsg core vec (rs.map s.gv) none))))) ∧
    (s.Open (d :: a :: rs) [] [] [] → sendTarget s (s.gv a) = .ok (core, vec) →
      s.objAt s.who (s.gv d) .write false = .ok key → (s.obj key).fabricKind = false →
      (∃ e ∈ s.ctx.obls, e.ref = .local_ key) → exec (.sendOb n d a b) s =
        .next (parkAfter true (s.issues (d :: a :: rs) [] (·.sendMsg core vec
          (rs.map s.gv ++ List.replicate (7 - n.val) 0 ++ [s.gv d]) (some (.local_ key)))))))

/-! ### Write channels and reductions (10) -/

/-- WCOPEN, WCSEL, WCREL, WCREL.rp, WCCLOSE, MCST, MCREL and MCREL.rp complete, of a task that is not redundant. R223: WCOPEN's
words and its destination are checked in their order, a full send table and a group that is not VALID fault CHANNEL, and else a
channel whose handshake is open takes the lowest free entry, an OPEN leaves for each peer, and the slot parks in state 3. A
registry without room faults OBJ_OVERSUB with MINRANK in bits 31:0 of the ranks (R186, R276); the rank in bits 63:32 is not known
before the handshake, so that it is any value (log 64). R224: WCSEL writes WCH. R225, R229: a release leaves its number in g(d),
and its flag carries that number, the writes counted and the generation. R226: a close sends the final release, discharges the
task's entry, frees the entry of the send table and clears a WCH that names it; a FAILED channel closes without sending. R228:
MCST counts its line on the group's channel, reads it as the access is performed, and parks the slot in state 3. -/
def Obligations.ChannelsOpenAndUsed : Prop :=
  (∀ (s : State) (d a b : GIx), s.rdt = false → s.plainBlocked = false → s.heldRel = false → s.Open [a, b] [] [d] [] →
    let p := (s.gv a).toNat
    let o := (s.gv b).toNat
    let die := dieOfCore s.core
    let remote := o / 4 % 2 = 0 ∧ p / 2 ^ 60 = 8 ∧ s.peerCheck (p / 2 ^ 48 % 4096) = none
    let grouped := o / 4 % 2 = 1 ∧ p < 2 ^ 58 ∧ (s.groupAt (p / 2 ^ 48 % 1024)).valid = true
    (8 ≤ o → Traps (.wcopen d a b) s ⟨0x1B, 0, 0⟩) ∧
    (o < 8 → o / 4 % 2 = 0 → p / 2 ^ 60 ≠ 8 → Traps (.wcopen d a b) s ⟨0x04, s.gv a, 0⟩) ∧
    (o < 8 → o / 4 % 2 = 0 → p / 2 ^ 60 = 8 → ∀ c, s.peerCheck (p / 2 ^ 48 % 4096) = some c →
      Traps (.wcopen d a b) s ⟨c, s.gv a, 0⟩) ∧
    (o < 8 → o / 4 % 2 = 1 → 2 ^ 58 ≤ p → Traps (.wcopen d a b) s ⟨0x04, s.gv a, 0⟩) ∧
    (o < 8 → o / 4 % 2 = 1 → p < 2 ^ 58 → (s.groupAt (p / 2 ^ 48 % 1024)).valid = false →
      Traps (.wcopen d a b) s ⟨0x0A, 0, 0⟩) ∧
    (o < 8 → (remote ∨ grouped) → tabFree (s.dieAt die).chans 1024 = none → Traps (.wcopen d a b) s ⟨0x0A, 0, 0⟩) ∧
    (∀ ix (dest : BitVec 12) (peers : List (BitVec 12)), tabFree (s.dieAt die).chans 1024 = some ix → o < 8 →
      ((remote ∧ dest = BitVec.ofNat 12 (p / 2 ^ 48) ∧ peers = [dest]) ∨
        (grouped ∧ dest = BitVec.ofNat 12 (p / 2 ^ 48 % 1024) ∧ peers = s.membersOf dest.toNat)) →
      let h := die * 1024 + ix
      let group := o / 4 % 2 == 1
      let reliable := o % 2 == 1
      let off := BitVec.ofNat 48 p
      let chan := newChan s.ctx.tid s.core group reliable dest off peers
      (registryRoom s.ctx.obls chan.ref = false →
        ∃ r : BitVec 32, Traps (.wcopen d a b) s ⟨0x14, s.gv a, r ++ BitVec.ofNat 32 s.ctx.minRank⟩) ∧
      (registryRoom s.ctx.obls chan.ref = true → exec (.wcopen d a b) s = .next (parkAfter true (s.issues [a, b] [] fun t =>
        peers.foldl (fun t x => t.sendPkt (openPkt s.core h group reliable x off))
          ((t.modDie die fun x => { x with chans := tabPut x.chans ix { chan with id := t.seq } }).startAcc
            (.wcopen d (BitVec.ofNat 12 h) (o / 2 % 2 == 1) (s.gv a)) true)))))) ∧
  (∀ (s : State) (a : GIx), s.Open [a] [] [] [] →
    let h := (s.gv a).toNat
    let named := h < 4096 ∨ (h / 4096 = 8 ∧ ∃ c, s.chanOf (h % 4096) = some c ∧ c.failed = false)
    (named → exec (.wcsel a) s = .next (s.issues [a] [] fun t => t.modCtx fun x => { x with wch := BitVec.ofNat 16 h })) ∧
    (¬ named → Traps (.wcsel a) s ⟨0x0A, 0, 0⟩)) ∧
  (∀ (s : State) (d a b : GIx), s.rdt = false → s.plainBlocked = false →
    let h := (s.gv a).toNat
    let tag := (s.gv b).extractLsb' 0 16
    (∀ c, h < 4096 → s.chanOf h = some c → c.failed = false →
      let num := BitVec.ofNat 64 (c.released + 1)
      (c.group = false → s.Open [a] [] [d] [] → exec (.wcrel d a) s = .next (s.issues [a] [] fun t =>
        (t.releaseChan s.core h none false none).writeG d num)) ∧
      (c.group = false → s.Open [a, b] [] [d] [] → exec (.wcrelRp d a b) s = .next (s.issues [a, b] [] fun t =>
        (t.releaseChan s.core h (some tag) false none).writeG d num)) ∧
      (c.group = true → s.Open [a] [] [d] [] → exec (.mcrel d a) s = .next (s.issues [a] [] fun t =>
        (t.releaseChan s.core h none false none).writeG d num)) ∧
      (c.group = true → s.Open [a, b] [] [d] [] → exec (.mcrelRp d a b) s = .next (s.issues [a, b] [] fun t =>
        (t.releaseChan s.core h (some tag) false none).writeG d num))) ∧
    ((∀ c, h < 4096 → s.chanOf h = some c → c.failed = true ∨ c.group = true) →
      (s.Open [a] [] [d] [] → Traps (.wcrel d a) s ⟨0x0A, 0, 0⟩) ∧ (s.Open [a, b] [] [d] [] → Traps (.wcrelRp d a b) s ⟨0x0A, 0, 0⟩)) ∧
    ((∀ c, h < 4096 → s.chanOf h = some c → c.failed = true ∨ c.group = false) →
      (s.Open [a] [] [d] [] → Traps (.mcrel d a) s ⟨0x0A, 0, 0⟩) ∧ (s.Open [a, b] [] [d] [] → Traps (.mcrelRp d a b) s ⟨0x0A, 0, 0⟩)) ∧
    (s.Open [a] [] [] [] → ∀ c, h < 4096 → s.chanOf h = some c →
      exec (.wcclose a) s = .next (s.issues [a] [] fun t => t.closeChan s.core s.slot h none)) ∧
    (s.Open [a] [] [] [] → (4096 ≤ h ∨ s.chanOf h = none) → Traps (.wcclose a) s ⟨0x0A, 0, 0⟩)) ∧
  (∀ (s : State) (a b : GIx) (n : Fin 4), s.rdt = false → s.plainBlocked = false → s.heldRel = false → s.Open [a, b] [] [] [] →
    let w := s.ctx.wch.toNat % 4096
    (2 ^ 48 ≤ (s.gv a).toNat → Traps (.mcst n a b) s ⟨0x04, s.gv a, 0⟩) ∧
    ((s.gv a).toNat < 2 ^ 48 → 0 < (s.gv b).toNat / 2 ^ 60 → (s.gv b).toNat / 2 ^ 60 < 0xE →
      Traps (.mcst n a b) s ⟨0x04, s.gv b, 0⟩) ∧
    ((s.gv a).toNat < 2 ^ 48 → ((s.gv b).toNat / 2 ^ 60 = 0 ∨ 0xE ≤ (s.gv b).toNat / 2 ^ 60) →
      ∀ key, s.element s.who (s.gv b) (64 * (n.val + 1)) 64 .read = .ok (.mem key) →
        ((s.ctx.wch.getLsbD 15 = false ∨ ∀ c, s.chanOf w = some c → c.group = false ∨ c.failed = true ∨ 2 ^ 23 ≤ c.unrel + 1) →
          Traps (.mcst n a b) s ⟨0x0A, 0, 0⟩) ∧
        (∀ c, s.ctx.wch.getLsbD 15 = true → s.chanOf w = some c → c.group = true → c.failed = false → c.unrel + 1 < 2 ^ 23 →
          exec (.mcst n a b) s = .next (parkAfter true (s.issues [a, b] [] fun t =>
            (t.modChan w fun c => { c with unrel := c.unrel + 1, counted := c.counted + 1 }).startAcc
              (.mcst s.ctx.wch (BitVec.ofNat 48 (s.gv a).toNat) key (64 * (n.val + 1)) (s.gv b)) true))))) ∧
  (∀ (s : State) (n : Nat) (i : Fin 16) (h : Nat) (c : Chan) (rp : Option (BitVec 16)),
    tabGet (s.dieAt (h / 1024 % 4)).chans (h % 1024) = some c →
    let flagged := fun (t : State) => ∃ q, t.net = s.net ++ [q] ∧ q.typ = (if c.group then 0x08 else 0x07) ∧ q.dst = c.dest ∧
      q.k = BitVec.ofNat 48 (c.released + 1) ∧ q.c = c.counted ∧ q.gen = c.gen
    let r := s.releaseChan n h rp false none
    let t := s.closeChan n i h none
    flagged r ∧ tabGet (r.dieAt (h / 1024 % 4)).chans (h % 1024) = some { c with released := c.released + 1, unrel := 0 } ∧
    (c.failed = false → flagged t) ∧ (c.failed = true → t.net = s.net) ∧
    tabGet (t.dieAt (h / 1024 % 4)).chans (h % 1024) = none ∧
    (t.ctxAt n i).wch = (if (s.ctxAt n i).wch = BitVec.ofNat 16 (2 ^ 15 + h % 4096) then 0 else (s.ctxAt n i).wch) ∧
    (t.ctxAt n i).obls = (if c.owes then dropChanObl (s.ctxAt n i).obls c else (s.ctxAt n i).obls))

/-- R230: REDPUT of a task that is not redundant, whose tag is not in use: one post is pending until the result, which g(d) awaits, and the
contribution leaves for the group's root. A group that is invalid or has no member here faults CHANNEL. -/
def Obligations.ReductionContribution : Prop :=
  ∀ (s : State) (op : RedOp) (ign : Bool) (d a b : GIx), s.rdt = false → s.tagBusy = false → s.relaxedBlocked false = false → s.Open [a, b] [] [d] [] →
    let w := (s.gv a).toNat
    let v := (s.gv b).toNat
    let g := w / 2 ^ 16 % 1024
    let e := s.groupAt g
    (2 ^ 32 ≤ v ∨ w / 2 ^ 26 % 64 ≠ 0 ∨ 2 ^ 38 ≤ w → Traps (.redput op ign d a b) s ⟨0x1B, 0, 0⟩) ∧
    (v < 2 ^ 32 → w / 2 ^ 26 % 64 = 0 → w < 2 ^ 38 →
      (e.valid = false ∨ e.local_ = false ∨ 32 < e.nmem.toNat → Traps (.redput op ign d a b) s ⟨0x0A, 0, 0⟩) ∧
      (e.valid = true → e.local_ = true → e.nmem.toNat ≤ 32 →
        exec (.redput op ign d a b) s = .next (s.issues [a, b] [] fun t =>
          ((t.startAcc (.reduce d (BitVec.ofNat 16 w) g) false).modCur fun c => { c with
            pending := c.pending + 1, redputs := c.redputs ++ [(rtagOf s.seq 0, BitVec.ofNat 16 w, g)] }).sendPkt
            (redPkt s.core e g (w % 2 ^ 16) (w / 2 ^ 32) op ign v (rtagOf s.seq 0)))))

/-! ### Other tasks' contexts and translations (13) -/

/-- R264, R270 to R273: CTXRD, CTXWR, RESUME and KILL on a task that the issuer may act on, and TLBINV, of a task that is
not redundant on targets that are not. The target's core is asked first, and the pair is decided once it has answered; for KILL
and TLBINV the slot parks in state 3 in the same way. A target that is the issuer, or not its to command, faults
PROTECTION. A killer that is to take the victim's entries itself and has no place for one faults OBJ_OVERSUB and ends nothing
(R186, R204). That the pair is decided at the answer and KILL's steps are done in one instant is log 5, and what CTXRD gives of an
Empty register is log 40: both the model's reading. -/
def Obligations.OtherTasks : Prop :=
  ∀ (s : State) (d a b : GIx) (n : Nat) (i : Fin 16), s.rdt = false → s.plainBlocked = false →
    let tid := (s.gv a).extractLsb' 0 48
    let c := s.ctxAt n i
    let mine := (s.gv a).toNat < 2 ^ 48 ∧ tid ≠ s.ctx.tid ∧ s.findTask tid = some (n, i) ∧
      (s.ctx.mode = true ∨ (s.ctx.supervisor = true ∧ s.descends s.ctx.rcb 64 c.rcb = true))
    let acts : Instr → List GIx → (State → State) → Prop := fun i gs f => exec i s = .next (s.issues gs [] fun t => f t.count3)
    let sel := (s.gv b).toNat
    let v := s.gv d
    let come := s.ctx.answered.isSome = true
    (s.ctx.answered = none → (s.Open [a, b] [] [d] [] → Asks (.ctxrd d a b) s .home) ∧
      (s.Open [a, b, d] [] [] [] → Asks (.ctxwr d a b) s .home) ∧
      (s.Open [a] [] [] [] → mine → Asks (.resume a) s .home ∧ Asks (.kill a) s .home) ∧
      (s.Open [a, b] [] [] [] → s.ctx.mode = true → sel < 2 ^ 26 → sel / 2 ^ 24 < 3 → Asks (.tlbinv a b) s .home)) ∧
    (s.Open [a, b] [] [d] [] → come → (s.slotAt n i).st ≠ .faulted → mine → Traps (.ctxrd d a b) s ⟨0x06, 0, 0⟩) ∧
    (s.Open [a, b] [] [d] [] → come → mine → (s.slotAt n i).st = .faulted →
      let reads : Nat → Word → Prop := fun k w => sel = k → acts (.ctxrd d a b) [a, b] fun t => t.writeG d w
      (∀ r : GIx, c.g[r].pending = false → reads r.val (if c.g[r].d then 0 else c.g[r].val)) ∧
      reads 0x10 (c.pw.zeroExtend 64) ∧ reads 0x11 c.lm ∧ reads 0x12 c.pc ∧ reads 0x13 (c.rnd.zeroExtend 64) ∧
      reads 0x14 (c.cmask.zeroExtend 64) ∧ reads 0x15 (c.sstat.zeroExtend 64) ∧ reads 0x16 (c.wch.zeroExtend 64) ∧
      reads 0x17 (c.ecxsel.zeroExtend 64) ∧ reads 0x19 (BitVec.ofNat 64 c.minRank) ∧ reads 0x1A (c.tid.zeroExtend 64) ∧
      reads 0x1B (c.rgn.zeroExtend 64) ∧
      (∀ (r : VIx) (k : Fin 8), c.v[r].pending = false →
        reads (0x20 + 8 * r.val + k.val) (if c.v[r].d then 0 else c.v[r].val.extractLsb' (64 * k.val) 64)) ∧
      (0x1C ≤ sel ∧ sel < 0x20 ∨ 0x60 ≤ sel → Traps (.ctxrd d a b) s ⟨0x1B, 0, 0⟩)) ∧
    (s.Open [a, b, d] [] [] [] → come → mine → (s.slotAt n i).st = .faulted → s.settledBoth n i = true → s.isRdt c.rcb = false →
      let writes : Nat → (Ctx → Ctx) → Prop := fun k f => sel = k → acts (.ctxwr d a b) [a, b, d] fun t => t.modCtxAt n i f
      (∀ r : GIx, c.g[r].pending = false → writes r.val (·.setG r v)) ∧ writes 0x10 (fun c => { c with pw := v.truncate 16 ||| 1 }) ∧
      writes 0x11 (fun c => { c with lm := v }) ∧ (v.toNat % 8 = 0 → writes 0x12 fun c => { c with pc := v }) ∧
      writes 0x13 (fun c => { c with rnd := v.truncate 5 }) ∧ writes 0x14 (fun c => { c with cmask := v.truncate 24 }) ∧
      writes 0x15 (fun c => { c with sstat := c.sstat &&& ~~~(v.truncate 9) }) ∧
      writes 0x17 (fun c => { c with ecxsel := v.truncate 2 }) ∧
      (sel = 0x18 ∨ sel = 0x19 ∨ sel = 0x1A ∨ sel = 0x1B → Traps (.ctxwr d a b) s ⟨0x06, 0, 0⟩) ∧
      (sel = 0x12 → v.toNat % 8 ≠ 0 → Traps (.ctxwr d a b) s ⟨0x07, v, 0⟩)) ∧
    (s.Open [a] [] [] [] → come → mine →
      (s.settledBoth n i = true → s.isRdt c.rcb = false → acts (.resume a) [a] fun t => t.resumeTask n i) ∧
      (s.killOver tid = none → exec (.kill a) s = .next (s.issues [a] [] fun t => t.killTask tid)) ∧
      (∀ o, s.killOver tid = some o → Traps (.kill a) s ⟨0x14, o.addr, o.rank ++ BitVec.ofNat 32 s.ctx.minRank⟩)) ∧
    (s.Open [a] [] [] [] → (2 ^ 48 ≤ (s.gv a).toNat ∨ tid = s.ctx.tid) → Traps (.resume a) s ⟨0x06, 0, 0⟩ ∧ Traps (.kill a) s ⟨0x06, 0, 0⟩) ∧
    (s.Open [a, b] [] [] [] → s.ctx.mode = true → sel < 2 ^ 26 →
      (sel / 2 ^ 24 = 3 → Traps (.tlbinv a b) s ⟨0x1B, 0, 0⟩) ∧
      (sel / 2 ^ 24 < 3 → come → ∃ t, exec (.tlbinv a b) s = .next t ∧ t.mem = s.mem ∧ ∀ k, ∀ e ∈ (t.clusterAt k).tlb,
        e ∈ (s.clusterAt k).tlb ∧ tlbMatch s ((s.gv a).toNat % 2 ^ 56) (sel % 2 ^ 24) (sel / 2 ^ 24) e = false))

/-! ### Herds and sweeps (11, 12) -/

/-- R234 to R236, R246 to R249: SWDECL, SWBIND, SWRUN, SWWAKE and SWSTAT of a task that is not redundant. The engine is asked
first, and the pair is decided once it has answered. A handle that names no entry of the cluster or no herd of the region
faults PROTECTION. That a handle is SEQ plus 1, that storage for summaries goes to the lowest bands, that a handle is refused at
once after FREE, and which ranks the records of g4 and g5 hold, is the model's reading (log 22); that the lowest free entry is
taken is its choice (log 73). -/
def Obligations.HerdInstructions : Prop :=
  (∀ (s : State) (d a b : GIx), s.rdt = false → s.plainBlocked = false → s.ctx.answered = none →
    (s.Open [a] [] [d] [] → Asks (.swdecl d a) s .home ∧ Asks (.swstat d a) s .home) ∧
    (s.Open [d, a, b] [] [] [] → Asks (.swbind d a b) s .home) ∧
    (s.Open [a, b] [] [] [] → Asks (.swrun a b) s .home ∧ Asks (.swwake a b) s .home)) ∧
  ∀ (s : State) (d a b : GIx) (h : Fin 16) (x : Herd), s.rdt = false → s.plainBlocked = false → s.ctx.answered.isSome = true →
    let n := s.cluster
    let acts : Instr → List GIx → (State → State) → Prop := fun i gs f => exec i s = .next (s.issues gs [] fun t => f t.count3)
    let va := (s.gv a).toNat
    let vb := (s.gv b).toNat
    let vd := (s.gv d).toNat
    (s.Open [a] [] [d] [] →
      (∀ t, declareHerd s (s.gv a) = .error t → Traps (.swdecl d a) s t) ∧
      (declareHerd s (s.gv a) = .ok x →
        ((∀ k, (s.clusterAt n).herds[(k : Fin 16)].isSome = true) → acts (.swdecl d a) [a] fun t => t.writeG d 0) ∧
        ((s.clusterAt n).herds[h] = none → (∀ k : Fin 16, k < h → (s.clusterAt n).herds[k].isSome = true) →
          let seq := (s.clusterAt n).seqs[h] + 1
          acts (.swdecl d a) [a] fun t => (t.modCluster n fun c => { c with
            seqs := c.seqs.set h seq, herds := c.herds.set h (some { x with seq := seq }) }).writeG d (handleWord n h seq)))) ∧
    (s.Open [d, a, b] [] [] [] → s.handleEntry (vd % 2 ^ 32) = some (h, x) →
      (x.run.isSome = true → vd / 2 ^ 32 < 20 → (16 ≤ vd / 2 ^ 32 → vb = 0) → Traps (.swbind d a b) s ⟨0x06, 0, 0⟩) ∧
      (x.run = none → s.gv a = 0 →
        (∀ k : Fin 16, vd / 2 ^ 32 = k.val → rankFault s 0 (Herd.slotKeys s { x with slots := x.slots.set k none }) (Herd.owedKeys s x) = none →
          acts (.swbind d a b) [d, a, b] fun t => t.setHerd t.cluster h (some { x with slots := x.slots.set k none })))) ∧
    (s.Open [a, b] [] [] [] → s.handleEntry va = some (h, x) →
      (vb / 2 ^ 32 = 2 ^ 31 → acts (.swrun a b) [a, b] fun t => t.modRun t.cluster h fun r => { r with stop := true, idle := false }) ∧
      (vb / 2 ^ 32 = 2 ^ 30 → x.run = none → acts (.swrun a b) [a, b] fun t => t.setHerd t.cluster h none) ∧
      (vb / 2 ^ 32 = 0 → x.run.isSome = true → Traps (.swrun a b) s ⟨0x06, 0, 0⟩) ∧
      (vb / 2 ^ 32 = 0 → x.run = none → runFault s x = none → acts (.swrun a b) [a, b] fun t => t.startRun t.cluster h x vb) ∧
      (x.count ≤ vb → Traps (.swwake a b) s ⟨0x06, 0, 0⟩) ∧
      (vb < x.count → x.run = none → acts (.swwake a b) [a, b] fun t => t.applyWake t.cluster h vb) ∧
      (vb < x.count → ∀ r, x.run = some r → r.cursor.isSome = true →
        acts (.swwake a b) [a, b] fun t => t.modRun t.cluster h fun r => { r with wakes := r.wakes ++ [vb] })) ∧
    (s.Open [a] [] [d] [] → s.handleEntry (va % 2 ^ 32) = some (h, x) →
      (∀ k : Fin 4, va / 2 ^ 32 = k.val + 1 → acts (.swstat d a) [a] fun t => t.writeG d (x.counters[k].zeroExtend 64)) ∧
      (va / 2 ^ 32 = 0 → x.faults < 2 ^ 24 → x.sweeps < 2 ^ 32 → ∃ w : Word, acts (.swstat d a) [a] (fun t => t.writeG d w) ∧
        w.getLsbD 63 = x.run.isSome ∧ (x.faulted = true → w.getLsbD 61 = true) ∧ w.toNat / 2 ^ 32 % 2 ^ 24 = x.faults ∧
        w.toNat % 2 ^ 32 = x.sweeps) ∧
      (5 ≤ va / 2 ^ 32 → Traps (.swstat d a) s ⟨0x1B, 0, 0⟩)) ∧
    (s.Open [a, b] [] [] [] → s.handleEntry va = none → Traps (.swrun a b) s ⟨0x06, 0, 0⟩ ∧ Traps (.swwake a b) s ⟨0x06, 0, 0⟩)

/-- R237 to R244: the context instructions of a running activation: what each leaves in the activation, whose next PC is
the following one unless the instruction sets it; one that ends the element keeps its PC, and a PC past PLEN is
ElementFault(0xF7). R241: an FP32 comparison raises its flags, NV among them, in the herd's FLAGS. R244: CSIG counts, and signals
the object that the run owes for its counter, unless that is poisoned. -/
def Obligations.ContextInstructions : Prop :=
  ∀ (s : State) (x : Herd) (d r : CIx) (o : Op2) (g : GetSel) (q : PutSel) (t : BitVec 6) (k : Fin 16) (m : Fin 4)
    (code : BitVec 8), s.act.status = .running → s.herd = some x →
    let a := s.act
    let y := match o with | .reg b => a.c[b] | .imm v => v.signExtend 32
    let yf := match o with | .reg b => a.c[b] | .imm v => v.zeroExtend 32 <<< 16
    let v := a.c[r]
    let set : BitVec 32 → Act → Act := fun w a => { a with c := a.c.set d w }
    let does : Instr → (Act → Act) → Prop := fun i f =>
      exec i s = .next { s with act := { f { a with next := a.pc + 1 } with pc := a.pc + 1 } }
    let ends : Instr → (Act → Act) → Prop := fun i f => exec i s = .next { s with act := f { a with next := a.pc + 1 } }
    let floats : Instr → Nat × Flags → Prop := fun i z => exec i s =
      .next ({ s with act := { set (BitVec.ofNat 32 z.1) a with next := a.pc + 1, pc := a.pc + 1 } }.modOwnHerd fun h =>
        { h with flags := h.flags ||| (z.2 &&& herdFlags) })
    let rnd := Rnd.ofBits x.rnd
    (a.pc + 1 ≤ x.plen →
      does .ctxCnop id ∧ does (.cmov d o) (set y) ∧ does (.cidx d) (set (BitVec.ofNat 32 a.i)) ∧
      does (.cget d g) (set (match g with | .e => a.e | .aux => a.aux.zeroExtend 32 | .p n => x.params[n])) ∧
      does (.cput q r) (fun a => match q with | .e => { a with e := v } | .aux => { a with aux := v.extractLsb' 0 8 }) ∧
      does (.cadd d r o) (set (v + y)) ∧ does (.csub d r o) (set (v - y)) ∧ does (.cmul d r o) (set (v * y)) ∧
      does (.cand d r o) (set (v &&& y)) ∧ does (.cor d r o) (set (v ||| y)) ∧
      does (.cshl d r o) (set (v <<< (y.toNat % 32))) ∧ does (.cshr d r o) (set (v >>> (y.toNat % 32))) ∧
      does (.cmin d r o) (set (if v.toInt ≤ y.toInt then v else y)) ∧ does (.cmax d r o) (set (if y.toInt ≤ v.toInt then v else y)) ∧
      floats (.cfadd d r o) (addF Fmt.fp32 rnd v.toNat yf.toNat) ∧ floats (.cfmul d r o) (mulF Fmt.fp32 rnd v.toNat yf.toNat) ∧
      floats (.cfmax d r o) (minMaxF Fmt.fp32 rnd true v.toNat yf.toNat) ∧
      (∀ c ∈ [(CCond.eq, v = y), (.ne, v ≠ y), (.lt, v.toInt < y.toInt), (.ge, y.toInt ≤ v.toInt), (.ltu, v.toNat < y.toNat),
        (.geu, y.toNat ≤ v.toNat)], ∃ u, exec (.ccmp c.1 r o) s = .next u ∧ (u.act.f = true ↔ c.2) ∧ u.act.c = a.c ∧
          u.act.pc = a.pc + 1 ∧ u.mem = s.mem) ∧
      (∀ c ∈ [(CCond.flt, FCond.lt), (.fle, .le)], let z := cmpF Fmt.fp32 rnd c.2 v.toNat y.toNat
        exec (.ccmp c.1 r o) s = .next ({ s with act := { a with f := z.1, next := a.pc + 1, pc := a.pc + 1 } }.modOwnHerd fun h =>
          { h with flags := h.flags ||| (z.2 &&& herdFlags) })) ∧
      (1 ≤ y.toNat → y.toNat ≤ 255 → a.i < y.toNat → does (.cnb d o) fun a => { set 0 a with f := true }) ∧
      (1 ≤ y.toNat → y.toNat ≤ 255 → y.toNat ≤ a.i → ∀ c, s.readCell a.cluster x (a.i - y.toNat) = .ok c →
        does (.cnb d o) fun a => { set c.e a with f := c.done }) ∧
      (x.inBase ≠ 0 → ∀ w, s.engineRead a.cluster x.rcb (x.inBase + BitVec.ofNat 64 (4 * a.i)) 4 = .ok w →
        does (.cin d) (set (BitVec.ofNat 32 w))) ∧
      (x.outBase ≠ 0 → ∀ u : State, s.engineWrite a.cluster x.rcb (x.outBase + BitVec.ofNat 64 (4 * a.i)) 4 v.toNat = .ok u →
        ∃ w, exec (.cout r) s = .next w ∧ w.mem = u.mem ∧ w.act.pc = a.pc + 1 ∧ w.act.c = a.c) ∧
      (1 ≤ v.toNat → v.toNat ≤ 255 → a.i < v.toNat → does (.cwe r t) fun a => { a with f := false }) ∧
      (1 ≤ v.toNat → v.toNat ≤ 255 → v.toNat ≤ a.i → ∀ c, s.readCell a.cluster x (a.i - v.toNat) = .ok c →
        (c.done = true ∨ (t ≠ 0 ∧ t.toNat ≤ c.pc.toNat) → does (.cwe r t) fun a => { a with f := false }) ∧
        (c.done = false → t = 0 ∨ c.pc.toNat < t.toNat → does (.cwe r t) fun a =>
          { a with status := .parked, wk := 1, wts := t, warg := BitVec.ofNat 8 v.toNat })) ∧
      (x.snapOf k = .met → does (.cws k) fun a => { a with f := false }) ∧
      (x.snapOf k = .forced → does (.cws k) fun a => { a with f := true }) ∧
      (x.snapOf k = .unmet → does (.cws k) fun a => { a with status := .parked, wk := 2, wts := 0, warg := BitVec.ofNat 8 k.val }) ∧
      (y = 0 → does (.cww o) fun a => { a with f := false }) ∧
      (1 ≤ y.toNat → y.toNat ≤ 255 → does (.cww o) fun a =>
        { a with status := .parked, wk := 3, wts := 0, warg := BitVec.ofNat 8 y.toNat }) ∧
      (let count := x.counters[m] + 1
        let u := { s with act := { a with next := a.pc + 1 } }.modOwnHerd fun h => { h with counters := h.counters.set m count }
        let w := match x.run.bind fun r => r.counted[m] with
          | some key => if (s.obj key).poisoned then u
            else u.changeObj key ((s.obj key).signal (if (s.obj key).kind = 0 then count.toNat else 1))
          | none => u
        exec (.csig m) s = .next (w.modAct fun b => { b with pc := a.pc + 1 }))) ∧
    (t.toNat ≤ x.plen → exec (.cjmp .always t) s = .next { s with act := { a with next := t.toNat, pc := t.toNat } } ∧
      (a.f = true → exec (.cjmp .f t) s = .next { s with act := { a with next := t.toNat, pc := t.toNat } }) ∧
      (a.f = false → exec (.cjmp .nf t) s = .next { s with act := { a with next := t.toNat, pc := t.toNat } })) ∧
    (a.pc + 1 ≤ x.plen → (a.f = false → does (.cjmp .f t) id) ∧ (a.f = true → does (.cjmp .nf t) id)) ∧
    ends .cdone (fun a => { a with status := .retired, wk := 0, wts := 0, warg := 0 }) ∧
    ends (.cflt code) (Act.fault · code) ∧
    (y = 0 → ends (.cnb d o) (Act.fault · 0xF1)) ∧ (255 < y.toNat → ends (.cnb d o) (Act.fault · 0xF2) ∧ ends (.cww o) (Act.fault · 0xF2)) ∧
    (v = 0 → ends (.cwe r t) (Act.fault · 0xF1)) ∧ (255 < v.toNat → ends (.cwe r t) (Act.fault · 0xF2)) ∧
    (x.inBase = 0 → ends (.cin d) (Act.fault · 0xF3)) ∧ (x.outBase = 0 → ends (.cout r) (Act.fault · 0xF3)) ∧
    (x.snapOf k = .unbound → ends (.cws k) (Act.fault · 0xF6)) ∧
    (x.plen < a.pc + 1 → exec (.cmov d o) s =
      .next { s with act := { Act.fault (set y { a with next := a.pc + 1 }) 0xF7 with pc := x.plen } }) ∧
    (∀ e, (Act.fault a e).status = .faulted ∧ (Act.fault a e).flt = true ∧ (Act.fault a e).aux = e ∧ (Act.fault a e).pc = a.pc)

/-- R252, R253: what a sweep sees of a wait slot, and what a visit does to a cell that stays as it is: one that is
DONE, an element wait and a slot wait that are not met, and a sweep count that goes down. R253, R257, R261, R262: the
events of the sweep engine. That a visit runs one instruction at a time, that wakes are applied at a band boundary, and where the
sweep events fall, is the model's reading (log 22); that an event without its cause changes nothing is its choice (log 4). -/
def Obligations.Sweeps : Prop :=
  (∀ (s : State) (n : Nat) (h : Fin 16) (x : Herd) (i key : Nat) (p t : Word) (c : Cell), s.herdAt n h = some x →
    let o := s.obj key
    let see := s.snapSlot (some key) (some (p, t))
    (s.snapSlot none none = .unbound) ∧ (o.poisoned = true → see = .forced) ∧
    (o.poisoned = false → o.cond t = true → see = .met) ∧
    (o.poisoned = false → o.cond t = false → (see = .forced ↔ o.unowed = true) ∧ (see = .unmet ↔ o.unowed = false)) ∧
    (s.readCell n x i = .ok c →
      (c.done = true → s.visit n h i = s) ∧
      (c.done = false → c.wk = 1 → s.elemMet n x i c.warg.toNat c.wts = .ok false → s.visit n h i = s) ∧
      (c.done = false → c.wk = 2 → c.warg.toNat < 16 → x.snapOf (Fin.ofNat 16 c.warg.toNat) = .unmet → s.visit n h i = s) ∧
      (c.done = false → c.wk = 3 → 2 ≤ c.warg.toNat → s.visit n h i = s.putCell n h x i (some c) { c with warg := c.warg - 1 } false) ∧
      (c.done = false → c.wk = 3 → c.warg = 1 → s.visit n h i = s.activate n h x i { c with warg := 0 } false) ∧
      (c.done = false → c.wk = 0 → s.visit n h i = s.activate n h x i c (c.wts == 0x3F && c.warg == 0xFF))) ∧
    (Cell.ofNat c.toNat = c)) ∧
  (∀ (s : State) (n : Nat) (h : Fin 16) (x : Herd) (r : Run), s.herdAt n h = some x → x.run = some r →
    (r.cursor = none → r.idle = false → r.out = false → exec (.sweepStart n h) s = .next (s.startSweep n h) ∧
      exec (.idleWake n h) s = .next (s.startSweep n h)) ∧
    (r.cursor.isSome = true ∨ r.idle = true → exec (.sweepStart n h) s = .next s ∧ exec (.idleWake n h) s = .next s) ∧
    (r.wakes = [] → r.stop = true → s.startSweep n h =
      (s.modRun n h fun r => { r with idle := false, snap := Vector.ofFn fun k => s.snapSlot r.watched[k] x.slots[k] }).endRun n h) ∧
    (∀ k y b v, s.visiting n = some (k, y, b, v) → exec (.bandVisit n) s = .next (s.visitNext n k y b v)) ∧
    (s.visiting n = none → s.nextRun n = none → exec (.bandVisit n) s = .next s) ∧
    (s.visiting n = none → s.nextRun n = some h → ∀ b, r.cursor = some b →
      exec (.bandVisit n) s = .next ((s.modCluster n fun c => { c with engLast := h }).atBoundary n h b)) ∧
    (exec (.engineSwitch n h) s = .next (s.modRun n h fun r => { r with out := !r.out })) ∧
    (r.wakes = [] → r.stop = false → ∀ b, r.skips x.g b = true → b + 1 < x.bandCount →
      ∃ t, s.atBoundary n h b = t ∧ t.mem = s.mem ∧ t.herdAt n h = some { x with run := some { r with cursor := some (b + 1) } }))

/-! ### Events of accesses, streams and the matrix unit (08, 07) -/

/-- R51, R161, R177: the events of accesses. The oldest late fault stops its slot when it would issue; a fill goes
into its register when that is Empty or Dead, and not before; a fabric read without a reply is sent again three times
and then fails, a remote atomic fails at once, both with CHANNEL. R16, R162, R169: a read-bound port takes its next
element ahead while its FIFO of 8 has room; a write-bound port stores its oldest one, which waits for an outstanding access to the same
word, or an element of an earlier pair that another port is to write there (R154, R285), and for what a FENCE before it holds it
back from (R167); an element that fails is a late fault and halts the port. A
fill whose slot has lost its task is refused (log 55). Tasks that are not redundant. The model's choices and readings: a failed
element of a read port is reported against the pair that bound the port (log 56), SBIND checks no tag and the element that is
moved faults ADDR_TAG (log 52), a port with BASE = 0 never fetches (log 63), and an event without its cause changes nothing (log 4). -/
def Obligations.AccessAndStreamEvents : Prop :=
  (∀ (s : State) (n j : Nat) (i : Fin 16) (a : Access),
    let c := s.ctxAt n i
    let fails : Instr → GIx → Word → Prop := fun ev d p => ∃ t, exec ev s = .next t ∧
      (∃ r, (t.ctxAt n i).late.getLast? = some r ∧ r.cause = 0x0A ∧ r.late = true ∧ r.pc = a.pc ∧ r.addr = p ∧ r.pair = a.pair) ∧
      (t.ctxAt n i).late.length = c.late.length + 1 ∧ (t.ctxAt n i).g[d].d = true ∧ (t.ctxAt n i).g[d].f = false ∧ (∀ e, e ≠ d → (t.ctxAt n i).g[e] = c.g[e]) ∧
      (∀ x ∈ (t.ctxAt n i).accs, x.id ≠ a.id) ∧ t.mem = s.mem ∧ t.net = s.net
    (c.late = [] → exec (.lateFault n i.val) s = .next s) ∧
    (∀ r l, c.late = r :: l → (s.slotAt n i).st = .ready →
      ∃ t, exec (.lateFault n i.val) s = .next t ∧ (t.slotAt n i).st = .faulted ∧ (t.ctxAt n i).trap = some r ∧
        (t.ctxAt n i).late = l ∧ (t.ctxAt n i).g = c.g ∧ (t.ctxAt n i).pc = c.pc ∧ t.mem = s.mem) ∧
    (∀ r l, c.late = r :: l → (s.slotAt n i).st ≠ .ready → (s.slotAt n i).st ≠ .issued → (s.slotAt n i).st ≠ .object →
      exec (.lateFault n i.val) s = .next s) ∧
    ((s.coreAt n).fills[j]? = none → exec (.registerFill n j) s = .next s) ∧
    (∀ f, (s.coreAt n).fills[j]? = some f →
      let stands := s.fillStands n f = true
      let first := ∀ e ∈ (s.coreAt n).fills.take j, ¬(e.slot = f.slot ∧ e.reg = f.reg)
      (¬stands → f.src = none → exec (.registerFill n j) s = .next (s.modCore n fun c => { c with fills := c.fills.eraseIdx j })) ∧
      (stands → ¬first ∨ s.fillable n f.slot f.reg = false → exec (.registerFill n j) s = .next s) ∧
      (stands → first → s.fillable n f.slot f.reg = true → f.src = none → s.isRdt (s.ctxAt n f.slot).rcb = false →
        (s.slotAt n f.slot).st ≠ .settle → (s.ctxAt n f.slot).trail = false → ∃ t, exec (.registerFill n j) s = .next t ∧ (t.coreAt n).fills = (s.coreAt n).fills.eraseIdx j ∧
          (t.ctxAt n f.slot).g[f.reg] = { val := f.val, f := true, d := false, tag := none } ∧
          (∀ e, e ≠ f.reg → (t.ctxAt n f.slot).g[e] = (s.ctxAt n f.slot).g[e]) ∧ (∀ k, k ≠ f.slot → s.slotAt n k = t.slotAt n k) ∧
          t.mem = s.mem) ∧
      (stands → first → s.fillable n f.slot f.reg = true → ∀ sn si id y, f.src = some (sn, si, id) →
        let u := (s.modCore n fun c => { c with fills := c.fills.eraseIdx j }).fillReg n f.slot f.reg f.val
        ∀ m k, u.accPlace id = some (m, k, y) → exec (.registerFill n j) s = .next (u.finishAcc m k y)) ∧
      (¬stands → ∀ sn si id y m k, f.src = some (sn, si, id) →
        let u := s.modCore n fun c => { c with fills := c.fills.eraseIdx j }
        u.accPlace id = some (m, k, y) → exec (.registerFill n j) s = .next (u.failAcc m k y 0x06 0))) ∧
    (c.accs.find? (fun x => x.id == a.id) = some a → (s.slotAt n i).st ≠ .settle → c.trail = false →
      (∀ d len sx q off p, a.op = .loadG d len sx (.fab q off) p → c.g[d].tag = some a.id →
        (a.resends < 3 → s.tagInUse n = true → exec (.fabricReadResend n i.val a.id) s = .next s) ∧
        (a.resends < 3 → s.tagInUse n = false → ∃ t, exec (.fabricReadResend n i.val a.id) s = .next t ∧
          t.net = (s.sendPkt (readPkt n q off len (rtagOf s.seq 0))).net ∧
          (t.ctxAt n i).accs.find? (fun x => x.id == a.id) = some { a with resends := a.resends + 1, rid := s.seq } ∧
          (t.ctxAt n i).g = c.g ∧ t.mem = s.mem) ∧
        (3 ≤ a.resends → fails (.fabricReadResend n i.val a.id) d p)) ∧
      (∀ d op q off p, a.op = .atomic d op (.fab q off) p → c.g[d].tag = some a.id → fails (.atomicTimeout n i.val a.id) d p))) ∧
  (∀ (s : State) (n : Nat) (i : Fin 16) (k : Fin 4) (p : Port),
    let c := s.ctxAt n i
    let w := c.who n
    let len := 2 ^ p.size
    let addr := p.elem p.moved
    c.ports[k] = some p → s.isRdt c.rcb = false → c.trail = false → (s.slotAt n i).st ≠ .settle →
    (p.wr = false → p.base = 0 → exec (.streamElementFetch n i.val k) s = .next s) ∧
    (p.wr = false → p.base ≠ 0 →
      (8 ≤ p.fifo.length ∨ p.count ≤ p.moved ∨ p.halted = true → exec (.streamElementFetch n i.val k) s = .next s) ∧
      (p.fifo.length < 8 → p.moved < p.count → p.halted = false → ∀ key, s.portElement w p p.moved .read = .ok (.mem key) →
        (s.dataFault key len false = none →
          ∃ t, exec (.streamElementFetch n i.val k) s = .next t ∧ (t.ctxAt n i).ports[k] =
            some { p with
              fifo := p.fifo ++ [{ val := extend len p.sx (s.load key len), pc := 0, pair := 0, held := [], heldPorts := [] }]
              moved := p.moved + 1 } ∧
            (t.coreAt n).pcnt3 = (s.coreAt n).pcnt3 + 1 ∧ (t.ctxAt n i).g = c.g ∧ t.mem = s.mem) ∧
        (∀ f, s.dataFault key len false = some f →
          ∃ t, exec (.streamElementFetch n i.val k) s = .next t ∧ (t.ctxAt n i).ports[k] = some { p with halted := true } ∧
            (t.ctxAt n i).late = c.late ++ [{ cause := f.1, late := true, pc := p.pc, addr := addr, ranks := 0, pair := p.pair
                                              inflight := inflightOf c.accs }] ∧
            (f.2 = true → t.agenda = .event (.containment n) :: s.agenda) ∧ t.mem = s.mem)) ∧
      (∀ e, s.portElement w p p.moved .read = .error e → exec (.streamElementFetch n i.val k) s = .next s)) ∧
    (p.wr = true → (p.fifo = [] ∨ p.halted = true → exec (.streamDrain n i.val k) s = .next s) ∧
      ∀ x l, p.fifo = x :: l → p.halted = false →
        let fails : BitVec 8 → Prop := fun cause => ∃ t, exec (.streamDrain n i.val k) s = .next t ∧
          (t.ctxAt n i).ports[k] = some { p with halted := true } ∧ t.mem = s.mem ∧
          (t.ctxAt n i).late = c.late ++ [{ cause := cause, late := true, pc := x.pc, addr := addr, ranks := 0, pair := x.pair
                                            inflight := inflightOf c.accs }]
        (∀ e, s.portElement w p p.moved .write = .error e → fails e.cause) ∧
        (∀ key, s.portElement w p p.moved .write = .ok (.mem key) →
          let held := s.elemHeld n c x len (.mem key)
          (held = true → exec (.streamDrain n i.val k) s = .next s) ∧
          (held = false → s.frozen n (.mem key) = true → fails 0x20) ∧
          (held = false → s.frozen n (.mem key) = false →
            (∀ e, s.storeBad key = some e → fails e) ∧ (s.storeBad key = none → s.dropsStore key len = true → fails 0x21) ∧
            (s.storeBad key = none → s.dropsStore key len = false →
              ∃ t, exec (.streamDrain n i.val k) s = .next t ∧ t.mem = s.put key len x.val.toNat ∧
                (t.coreAt n).pcnt3 = (s.coreAt n).pcnt3 + 1 ∧
                (t.ctxAt n i).ports[k] = some { p with fifo := l, moved := p.moved + 1 })))))

/-- R137 to R148, R172 to R174: the matrix unit takes the requests of its cores in turn, each core's in order. A request reads its
memory piece by piece, in any order; once all is read and no earlier request of a common tile is unfinished, it leaves its result in the tile
or in the vector register, and a TST writes its memory piece by piece. An MMA may read from its issue on (R145), and the requests
of a core access memory in their order (R285). Requests of tasks that are not redundant. That pieces move one by one is the model's
choice (log 6), as is that the whole occupancy is counted at the start (log 23), with a free value under a power grant (log 77,
R397), and that an event without its cause changes nothing (log 4). -/
def Obligations.MatrixEvents : Prop :=
  (∀ (s : State) (cl n j k : Nat) (r : MxReq), n = cl * 8 + ((s.clusterAt cl).mxLast + 1 + j) % 8 → j < 8 →
    let core : Nat → Core := fun i => s.coreAt (cl * 8 + ((s.clusterAt cl).mxLast + 1 + i) % 8)
    (nextStart (s.coreAt n).mxq = some k → (s.coreAt n).mxq[k]? = some r → (∀ i, i < j → nextStart (core i).mxq = none) →
      r.started = false ∧ (∀ q ∈ (s.coreAt n).mxq.take k, q.started = true) ∧
      ∃ t, exec (.matrixRequestStart cl) s = .next t ∧
        (t.coreAt n).mxq = (s.coreAt n).mxq.modify k (fun q => q.start (s.coreAt n).tiles) ∧
        (t.clusterAt cl).mxLast = n % 8 ∧ (t.clusterAt cl).pcnt4 = (s.clusterAt cl).pcnt4 + r.occupancy + s.throttle n ∧
        (t.coreAt n).tiles = (s.coreAt n).tiles ∧ t.mem = s.mem) ∧
    ((∀ i, i < 8 → nextStart (core i).mxq = none) → exec (.matrixRequestStart cl) s = .next s)) ∧
  (∀ (s : State) (n k piece : Nat) (r : MxReq), n < 2048 → k < 4 → (s.coreAt n).mxq[k]? = some r →
    let ev := Instr.matrixResultWrite (n + 2048 * k + 8192 * piece) false
    let q := (s.coreAt n).mxq
    let clear := ∀ x ∈ q.take k, x.meets r = false ∨ x.op.isTst = true
    let done := ∀ x ∈ q.take k, x.memDone n = true
    let m := (r.reads n).length
    let j := r.turn m piece
    (piece < m → piece ∉ r.seen → j = piece) ∧
    (∀ p, (r.reads n)[j]? = some p →
      (done → r.started = true ∨ r.op.isTld = false → s.dataFault p.1 p.2.1 false = none → ∃ t, exec ev s = .next t ∧
        (t.coreAt n).mxq = q.modify k (fun x => { x with
          seen := x.seen ++ [j], got := x.got ++ [BitVec.ofNat 64 (s.load p.1 p.2.1)] }) ∧
        (t.coreAt n).tiles = (s.coreAt n).tiles ∧ t.mem = s.mem) ∧
      (¬done ∨ (r.started = false ∧ r.op.isTld = true) → exec ev s = .next s)) ∧
    ((r.reads n)[j]? = none → (r.started = false ∨ ¬clear) → exec ev s = .next s) ∧
    ((r.reads n)[j]? = none → r.started = true → clear → s.isRdt (s.ctxAt n r.slot).rcb = false →
      (s.slotAt n r.slot).st ≠ .settle → (s.ctxAt n r.slot).trail = false →
      let c := s.ctxAt n r.slot
      let tile := fun (x : TIx) => (s.coreAt n).tiles[x]
      let ends : (State → Prop) → Prop := fun f => ∃ t, exec ev s = .next t ∧ (t.coreAt n).mxq = q.eraseIdx k ∧
        (t.ctxAt n r.slot).pc = c.pc ∧ (t.ctxAt n r.slot).g = c.g ∧ f t
      let leaves : TIx → (Fin 16 → Fin 16 → BitVec 32 → Prop) → Prop := fun x f => ends fun t => t.mem = s.mem ∧
        (∀ i j : Fin 16, f i j (((t.coreAt n).tiles[x])[i])[j]) ∧ (∀ y : TIx, y ≠ x → (t.coreAt n).tiles[y] = tile y) ∧
        (t.ctxAt n r.slot).v = c.v
      let rows := r.shape.rows.toNat
      let cols := r.shape.cols.toNat
      (∀ x, r.op = .tzero x ∨ r.op = .trel x ∨ r.op = .tcfg x none → leaves x fun _ _ b => b = 0) ∧
      (∀ x o w, r.op = .tcfg x (some (o, w)) → leaves x fun i j b =>
        b = if i.val ≤ min o.rows.toNat w.rows.toNat ∧ j.val ≤ min o.cols.toNat w.cols.toNat then ((tile x)[i])[j] else 0) ∧
      (∀ x y z, r.op = .troww x y z → leaves x fun i j b =>
        b = if i = y ∧ j.val ≤ cols then r.shape.clip (vlane32 z j.val) else ((tile x)[i])[j]) ∧
      (∀ x y z, r.op = .tcolw x y z → leaves x fun i j b =>
        b = if j = y ∧ i.val ≤ rows then r.shape.clip (vlane32 z i.val) else ((tile x)[i])[j]) ∧
      (∀ x y, r.op = .ttrans x y → leaves x fun i j b => b = ((tile y)[j])[i]) ∧
      (∀ v x y, r.op = .trowr v x y → c.tid = r.tid → c.v[v].tag = some r.id → c.v[v].d = false → ends fun t =>
        (t.coreAt n).tiles = (s.coreAt n).tiles ∧ t.mem = s.mem ∧ (t.ctxAt n r.slot).v[v].f = true ∧
          ∀ j : Fin 16, vlane32 (t.ctxAt n r.slot).v[v].val j.val = if j.val ≤ cols then ((tile x)[y])[j] else 0) ∧
      (∀ v x y, r.op = .tcolr v x y → c.tid = r.tid → c.v[v].tag = some r.id → c.v[v].d = false → ends fun t =>
        (t.coreAt n).tiles = (s.coreAt n).tiles ∧ t.mem = s.mem ∧ (t.ctxAt n r.slot).v[v].f = true ∧
          ∀ j : Fin 16, vlane32 (t.ctxAt n r.slot).v[v].val j.val = if j.val ≤ rows then ((tile x)[j])[y] else 0) ∧
      (∀ x esz els ps fill, r.op = .tld x esz els ps fill → r.data = none → els.length = (rows + 1) * (cols + 1) →
        leaves x fun i j b =>
          let e := i.val * (cols + 1) + j.val
          if i.val ≤ rows ∧ j.val ≤ cols then match els[e]? with
            | some (some _) => b = (r.words.getD ((els.take e).filter (·.isSome)).length 0).truncate 32
            | _ => b = r.shape.clip fill
          else b = ((tile x)[i])[j]) ∧
      (∀ x esz els ps l, r.op = .tst x esz els ps → r.writesOf = some (esz, l) →
        let i := r.turn l.length piece
        (∀ e, l[i]? = some e → (done → exec ev s = .next (s.writeReq n k i r esz e.1.1 e.1.2 e.2)) ∧
          (¬done → exec ev s = .next s)) ∧
        (l[i]? = none → (∀ a ∈ c.accs, a.id = r.id → a.bad = none) →
          ends fun t => t.mem = s.mem ∧ (t.coreAt n).tiles = (s.coreAt n).tiles)) ∧
      (∀ int x a b, r.op = (if int then .mmai x a b else .mma x a b) → ∀ y f,
        runMma r int r.operands (tile x) = some (y, f) →
          leaves x (fun i j z => z = (y[i])[j]) ∧
          (c.tid = r.tid → (∃ a, c.accs.find? (fun a => a.id == r.id) = some a) →
            ends fun t => (t.ctxAt n r.slot).sstat = c.sstat ||| f))))

/-- R28, R209, R212, R213, R281, R289: the engine's unit takes the oldest command that waits. A transfer moves piece by piece: the
bytes of a piece that lie in one source word are read at one instant, and the piece is written at a later one, once all its bytes
are there. That pieces are of at most 8 bytes and one moves per event is the model's choice (log 6), as is that an event without its
cause changes nothing (log 4). What the unit completes leaves the FIFO's list, moves the timeline,
counts, and logs an error status; its mailbox entry is posted once every lower number has completed. -/
def Obligations.EngineEvents : Prop :=
  (∀ (s : State) (n : Nat) (op : EngOp),
    ((s.coreAt n).engs.find? (fun e => !e.started) = none → exec (.engineOperationStart n) s = .next s) ∧
    ((s.coreAt n).engs.find? (fun e => !e.started) = some op → ∃ t, exec (.engineOperationStart n) s = .next t ∧ t.mem = s.mem ∧
      (t.coreAt n).ecx = (s.coreAt n).ecx ∧ (t.coreAt n).engs =
        (s.coreAt n).engs.map fun o => if o.ecx = op.ecx ∧ o.n = op.n then { o with started := true } else o)) ∧
  (∀ (s : State) (n j k : Nat) (op : EngOp) (io : IoReply), (s.coreAt n).engs[j]? = some op → n < 2048 → j < 2 ^ 16 →
    let ev := Instr.engineOperationComplete n (j + 2 ^ 16 * k) io
    let x := op.work
    (op.started = false → exec ev s = .next s) ∧
    (op.started = true →
      (∀ w0 w1 w2 w3 pat desc, op.kind = .copy w0 w1 w2 w3 pat desc → w3.toNat / 2 ^ 42 % 4 = 0 →
        let l := copyLayout n (op.who n) w0 w1 w2 w3 pat desc
        (l.count ≤ x.pos → exec ev s = .next (s.finishOp n op 0 x.read 0)) ∧
        (x.pos < l.count → ∀ i c, k = i + l.count * c → i < l.count → x.isDone i = false →
          let lo := (l.piece i).1
          let p := (x.at_ i).getD (l.fresh i)
          let is := l.group i c p.todo
          (x.reading i = true → io.status = 0 → ∀ key : Nat → Nat,
            (∀ t ∈ is, ∃ q, l.src (lo + t) = .inl q ∧ s.resolve (op.who n) q .read = .ok (.mem (key t)) ∧
              s.dataFault (key t) 1 false = none) →
            let got := is.foldl (fun g t => g.set t (some ((s.byte (key t)).zeroExtend 64))) p.got
            exec ev s = .next (s.modEng n op fun o => { o with
              work := ({ x with read := x.read + is.length } : Work).put { p with
                got := got, todo := p.todo.filter fun t => !is.contains t } })) ∧
          (∀ bytes key u, x.reading i = false → p.bytes = some bytes → l.dst s lo = .ok key → s.dropsStore key bytes.length = false →
            s.engWrite n key bytes = .ok u →
            u = s.store key bytes.length (ofBytes bytes) ∧
            exec ev s = .next (u.modEng n op fun o => { o with work := x.finish i bytes.length }))) ∧
        (w3.toNat / 2 ^ 46 % 4 = 0 → w3.getLsbD 41 = false → l.total = w2.toNat ∧ ∀ t, t < w2.toNat →
          l.src t = .inl (w0 + BitVec.ofNat 64 t) ∧ l.dst s t = addrKey (op.who n) (w1 + BitVec.ofNat 64 t) s)) ∧
      (∀ dst src scale ctl p rnd, op.kind = .plane dst src scale ctl p rnd →
        let m := tpLines ctl * tpBlocks ctl
        (m ≤ x.pos → ∃ t, exec ev s = .next t ∧ t.mem = s.mem ∧ (t.coreAt n).pcnt5 = (s.coreAt n).pcnt5 + 1) ∧
        (x.pos < m → ∀ r, r = s.moveBlock n (op.who n) (io.status != 0) op dst src scale ctl p (Rnd.ofBits rnd).mode (x.turn m (k % m)) (k / m) →
          (∀ u y, r.1 = .on u y → exec ev s = .next (u.modEng n op fun o => { o with work := y, flags := o.flags ||| r.2 })) ∧
          (∀ u y e, r.1 = .fail u y e → exec ev s = .next (u.finishOp n op e y.read 0)))) ∧
      (∀ w0 w1 w2 w3 pat ns, op.kind = .io w0 w1 w2 w3 pat ns →
        (op.io = none → exec ev s = .next (s.modEng n op fun o => { o with
          io := some (if w1.toNat % 2 ^ ns.lbads.toNat ≠ 0 then [] else io.data.take (w3.toNat % 2 ^ 32), io.status) })) ∧
        (∀ data status, op.io = some (data, status) → (data = [] ∨ (ioLayout n (op.who n) data w2 w3 pat).count ≤ x.pos) →
          (status ≠ 0 ∨ data.length < w3.toNat % 2 ^ 32 → exec ev s = .next (s.finishOp n op 0x05 x.sent status)) ∧
          (status = 0 → w3.toNat % 2 ^ 32 ≤ data.length → exec ev s = .next (s.finishOp n op 0 x.sent 0)))))) ∧
  (∀ (s : State) (n : Nat) (op : EngOp) (status : BitVec 8) (bytes : Nat) (detail : BitVec 16),
    ∃ t, s.finishOp n op status bytes detail = t ∧ t.mem = s.mem ∧
      (t.coreAt n).engs = ((s.coreAt n).engs.filter fun o => !(o.ecx == op.ecx && o.n == op.n)) ∧
      (t.coreAt n).pcnt5 = (s.coreAt n).pcnt5 + 1 ∧
      (t.coreAt n).ecx[op.ecx].issued = (s.coreAt n).ecx[op.ecx].issued ∧
      (t.coreAt n).ecx[op.ecx].line = ((s.coreAt n).ecx[op.ecx].complete op.n).line ∧
      (∀ p ∈ (t.coreAt n).ecx[op.ecx].posts, (t.coreAt n).ecx[op.ecx].line < p.1) ∧
      (status = 0 → (t.coreAt n).ecx[op.ecx].errs = (s.coreAt n).ecx[op.ecx].errs) ∧
      (status ≠ 0 → ∃ l, (t.coreAt n).ecx[op.ecx].errs = (l :: (s.coreAt n).ecx[op.ecx].errs).take 8 ∧
        l.toNat / 2 ^ 32 % 2 ^ 8 = status.toNat ∧ l.toNat / 2 ^ 40 = op.n % 2 ^ 24)) ∧
  (∀ (x : Ecx), x.done = [] → x.complete (x.line + 1) = { x with done := [], line := x.line + 1 })

/-! ### Events of slots, stops and containment (05, 09, 13, 19, 23) -/

/-- R33, R149, R196, R206, R340 to R344: slot claims, urgency, pre-emption and its save, the shelving of a long wait, and a
result that reaches a saved task, whose settle is judged at its restore. The image, the tag table and the tile directory go to the
context area, whose bytes from 0x100 to 0x290F may change (R341; log 9). Tasks that are not redundant. That a save takes two events
and where a migrating task's slot is freed is the model's reading (log 46); that an event without its cause changes nothing is its
choice (log 4). -/
def Obligations.SlotEvents : Prop :=
  ∀ (s : State) (n k : Nat) (i : Fin 16),
    let sl := s.slotAt n i
    let c := s.ctxAt n i
    let core := s.coreAt n
    let saves : Instr → (Image → Prop) → Prop := fun ev q => ∃ t im, exec ev s = .next t ∧ (t.slotAt n i).st = .empty ∧
      (t.coreAt n).images = core.images ++ [im] ∧ im.ctx.tid = c.tid ∧ im.ctx.pc = c.pc ∧ im.ctx.g = c.g ∧ im.ctx.v = c.v ∧
      im.ctx.obls = c.obls ∧ (∀ a, a < c.area + 0x100 ∨ c.area + 0x2910 ≤ a → memRead t.mem a = memRead s.mem a) ∧ q im
    (sl.st = .ready → max sl.since sl.lastIssue + 240 ≤ s.clk → ∃ t, exec (.starvationGuard n i.val) s = .next t ∧
      t.slotAt n i = { sl with urgent := true } ∧ t.mem = s.mem) ∧
    (sl.st ≠ .ready ∨ s.clk < max sl.since sl.lastIssue + 240 → exec (.starvationGuard n i.val) s = .next s) ∧
    (sl.st.preemptable = true → c.trail = false → ∃ t, exec (.preEmption n i.val) s = .next t ∧
      (t.slotAt n i).st = .preempting ∧ (t.slotAt n i).was = sl.st ∧ (t.ctxAt n i).g = c.g ∧ (t.ctxAt n i).pc = c.pc ∧ t.mem = s.mem) ∧
    (sl.st = .empty ∨ sl.st = .ending ∨ sl.st = .shelving ∨ sl.st = .preempting → exec (.preEmption n i.val) s = .next s) ∧
    (s.isRdt c.rcb = false → sl.st = .preempting ∨ sl.st = .shelving → (∀ r ∈ core.mxq, r.slot ≠ i) →
      (∀ (j : Fin 4) (p : Port), c.ports[j] = some p → p.wr = true → p.halted = true ∨ p.fifo = []) →
      let mine : TIx → Prop := fun x => core.shapes[x].inuse = true ∧ core.shapes[x].owner = BitVec.ofNat 4 i.val
      ((∃ x, mine x) → ∃ t, exec (.preEmptionSave n i.val) s = .next t ∧ (t.slotAt n i).st = sl.st ∧ (t.ctxAt n i).g = c.g ∧
        ∀ x : TIx, mine x → (t.coreAt n).shapes[x] = { core.shapes[x] with inuse := false, dirty := false }) ∧
      ((∀ x, ¬mine x) → saves (.preEmptionSave n i.val) fun im =>
        (sl.st = .preempting → im.ready = true ∧ (sl.was = .ready → im.st = .ready)) ∧
        (∀ w, sl.st = .shelving → c.wait = some w → im.ready = false ∧ im.st = .object ∧ im.ctx.wait = some w) ∧
        ∀ (j : Fin 4) (p : Port), c.ports[j] = some p → p.wr = false → p.base ≠ 0 →
          im.ctx.ports[j] = some { p with moved := p.pos, fifo := [] })) ∧
    (((sl.st ≠ .preempting ∧ sl.st ≠ .shelving) ∨ ∃ r ∈ core.mxq, r.slot = i) → exec (.preEmptionSave n i.val) s = .next s) ∧
    (∀ w, c.wait = some w → w.sh = true → sl.st = .object →
      (s.cannotMove n i = false → ∃ t, exec (.waitShelveTimeout n i.val) s = .next t ∧ (t.slotAt n i).st = .shelving ∧
        (t.ctxAt n i).wait = some w ∧ (t.ctxAt n i).g = c.g ∧ t.mem = s.mem) ∧
      (s.cannotMove n i = true → exec (.waitShelveTimeout n i.val) s = .next s)) ∧
    (c.wait = none ∨ sl.st ≠ .object → exec (.waitShelveTimeout n i.val) s = .next s) ∧
    (∀ o, s.hub.orphans[k]? = some o → exec (.orphanTimeout k) s =
      .next ((s.modHub fun h => { h with orphans := h.orphans.eraseIdx k }).dischargeAll o.obl (some 0xFE) o.obl.m)) ∧
    (s.hub.orphans[k]? = none → exec (.orphanTimeout k) s = .next s) ∧
    (∀ x : Kid, (∀ e ∈ s.cores, e.2.msgs = []) → core.images = [] → core.launches = [] → core.runq = [x] → core.contained = false →
      x.migrating = none → s.isRdt x.ctx.rcb = false → (∀ m j, (s.slotAt m j).st ≠ .settle) → s.claimable n x.ctx.rcb = some i →
      ∃ t, exec (.slotClaim n) s = .next t ∧ (t.slotAt n i).st = .ready ∧ (t.ctxAt n i).tid = x.ctx.tid ∧
        (t.ctxAt n i).pc = x.ctx.pc ∧ (t.ctxAt n i).g = x.ctx.g ∧ (t.ctxAt n i).pcnt0 = 0 ∧ (t.coreAt n).runq = [] ∧ t.mem = s.mem) ∧
    (∀ (im : Image) (id : Nat) (a : Access) (d : GIx) (len : Nat) (sx : Bool) (key : Nat) (p : Word), core.images[k]? = some im →
      im.ctx.accs.find? (fun x => x.id == id) = some a → a.op = .loadG d len sx (.mem key) p → s.dataFault key len false = none →
      im.ctx.g[d].tag = some id → im.ctx.g[d].d = false → im.ctx.portOf d = none → im.ctx.trail = false → a.lv = none →
      ∃ t im', exec (.replyCatcher n k id false) s = .next t ∧ (t.coreAt n).images[k]? = some im' ∧
        im'.ctx.g[d] = { val := extend len sx (s.load key len), f := true, d := false, tag := none } ∧
        (∀ x ∈ im'.ctx.accs, x.id ≠ id) ∧ (∀ j, t.slotAt n j = s.slotAt n j) ∧ t.mem = s.mem)

/-- R44, R119, R276, R277, R279, R280, R373, R374, R377, R381: the faults of fetching and decoding, the delivery of a trap
record, breakpoint stops, the comparison of the two copies of a redundant task, and containment of a core. That the copies are
compared at the pair, that one record stands in the leading copy's place, and that no breakpoint stops a trailing copy is the model's
reading (log 24), as is what a dump writes where (log 9); that an event without its cause changes nothing is its choice (log 4). -/
def Obligations.StopEvents : Prop :=
  ∀ (s : State) (n : Nat) (i : Fin 16),
    let sl := s.slotAt n i
    let c := s.ctxAt n i
    Traps .encodingFault s ⟨0x01, 0, 0⟩ ∧
    (let out := s.ctx.pc < s.codeBase s.ctx.rcb ∨ s.codeEnd s.ctx.rcb ≤ s.ctx.pc
      let stops : State → BitVec 8 → State := fun t cause => t.takeTrap s.core s.slot
        { cause := cause, late := false, pc := s.ctx.pc, addr := s.ctx.pc, ranks := 0, pair := 0 }
      (out → exec (.fetchFault false) s = .next (stops s 0x03) ∧ exec (.fetchFault true) s = .next s) ∧
      (¬out → exec (.fetchFault false) s = .next s ∧
        ∀ key, s.resolve s.who s.ctx.pc .fetch = .ok (.mem key) → exec (.fetchFault true) s = .next (stops (s.foundError key 8) 0x21))) ∧
    (∀ r, c.trap = some r → sl.st = .faulted → c.handled = false → r.cause ≠ 0x28 → (∀ a ∈ c.accs, a.counted = false) →
      let u := s.writeDump n i c r
      let up := (u.trapRegion 64 (if (u.ctxAt n i).supervisor then u.rcbParent c.rcb else c.rcb)).getD 0
      let words := [2, c.tid.zeroExtend 64, BitVec.ofNat 64
        (r.cause.toNat + r.late.toNat * 2 ^ 8 + c.faultSlot.val * 2 ^ 16 + (s.hub.peer.toNat * 2 ^ 11 + n) * 2 ^ 32), r.pc, r.addr, r.ranks, r.pair]
      ∃ t m, exec (.trapRecord n i.val) s = .next t ∧ (t.ctxAt n i).handled = true ∧ t.mem = u.mem ∧ m.payload = words ∧
        m.kind = .trapRecord ∧ (t.slotAt n i).st = .faulted ∧
        (up = 0 → t.hub.notices = s.hub.notices ++ [.trapToService m]) ∧
        (up ≠ 0 → m.rcb = up ∧ m.pc = u.trapVec up ∧ (t.coreAt n).msgs = (s.coreAt n).msgs ++ [m])) ∧
    ((c.trap = none ∨ sl.st ≠ .faulted ∨ c.handled = true ∨ ∃ a ∈ c.accs, a.counted = true) →
      exec (.trapRecord n i.val) s = .next s) ∧
    (∀ k im r, (s.coreAt n).images[k]? = some im → im.st = .faulted → im.ctx.trap = some r → im.ctx.handled = false → r.cause ≠ 0x28 →
      (∀ a ∈ im.ctx.accs, a.counted = false) → ∃ t x, exec (.trapRecord n (k + 16)) s = .next t ∧ (t.coreAt n).images[k]? = some x ∧
        x.ctx.handled = true ∧ x.ctx.dseq = im.ctx.dseq + 1 ∧ x.st = .faulted ∧
        t.mem = (s.writeDump n (k + 16) im.ctx r).mem ∧ ∀ j, t.slotAt n j = s.slotAt n j) ∧
    (∀ (b : Fin 4), sl.st = .ready → c.trail = false → c.dbgHalt = none → c.bp[b] = c.pc ||| 1 → c.pc.toNat % 8 = 0 →
      (c.bpSkip = some c.pc → exec (.breakpoint n i.val) s = .next s) ∧
      (c.bpSkip ≠ some c.pc → ∃ t, exec (.breakpoint n i.val) s = .next t ∧ (t.slotAt n i).st = .faulted ∧
        (t.ctxAt n i).trap = some { cause := 0x28, late := false, pc := c.pc, addr := 0, ranks := 0, pair := 0 } ∧
        (t.ctxAt n i).handled = true ∧ (t.ctxAt n i).g = c.g ∧ (t.coreAt n).pcnt7 = (s.coreAt n).pcnt7 ∧
        (c.bpSession = 0 → t.mem = s.mem))) ∧
    (c.dbgHalt = none → (∀ b : Fin 4, c.bp[b].getLsbD 0 = false) → exec (.breakpoint n i.val) s = .next s) ∧
    (∀ l k w x, i.val < 8 → s.compareAt n i = some { slot := l, no := k, lead := some w, trail := some x, ok := false } →
      s.copyFault n i c = none → s.copyFault n i (s.ctxAt n (trailSlot i)) = none →
      (w = x → ∃ t, exec (.storeCompare n i.val) s = .next t ∧ (t.slotAt n i).st = .ready ∧ (t.ctxAt n i).late = c.late ∧
        t.mem = s.mem ∧ t.agenda = s.agenda) ∧
      (w ≠ x → ∃ t, exec (.storeCompare n i.val) s = .next t ∧ t.mem = s.mem ∧ t.agenda = .event (.containment n) :: s.agenda ∧
        (t.ctxAt n i).late = c.late ++ [{ cause := 0x22, late := true, pc := c.pc, addr := 0, ranks := 0, pair := w.headD 0
                                          inflight := inflightOf c.accs }])) ∧
    (s.compareAt n i = none → i.val < 8 → exec (.storeCompare n i.val) s = .next s) ∧
    ((s.coreAt n).contained = true → exec (.containment n) s = .next s) ∧
    ((s.coreAt n).contained = false → (∀ j, (s.slotAt n j).st = .empty) → (s.coreAt n).engs = [] → (s.coreAt n).fills = [] →
      (∀ m ∈ (s.coreAt n).msgs, m.fixed = false) → (s.coreAt n).offSlot = [] → ∃ t, exec (.containment n) s = .next t ∧
        (t.coreAt n).contained = true ∧ (t.coreAt n).sealed = true ∧ t.hub.notices = s.hub.notices ++ [.contained n, Notice.ofEvent 0] ∧
        t.mem = s.mem) ∧
    (∀ st, (s.coreAt n).contained = true → s.claimable n st = none)

/-! ### Host queues (19, 23, 24) -/

/-- R324, R326, R327, R331, R387 to R389, R391: the notify page with its TAIL writes, the binding of interpreters, completion
records and the host's accesses to its own memory and to the HDM range. That an event without its cause changes nothing is the
model's choice (log 4). -/
def Obligations.QueueEvents : Prop :=
  ∀ (s : State) (q key : Nat) (v : BitVec 32) (data : List Byte),
    let x := s.queueAt q
    let live := s.hub.ready = true ∧ s.hub.warm = false
    let ahead := (v.toNat + 2 ^ 32 - x.done) % 2 ^ 32
    let ok := (x.tail + 2 ^ 32 - x.done) % 2 ^ 32 ≤ ahead ∧ ahead ≤ 2 ^ x.reg.log2n.toNat
    let run := exec (.tailWrite q v) s
    (¬live → run = .next { s with hub := { s.hub with held := s.hub.held ++ [.tail q v] } }) ∧
    (live → x.reg.valid = false → run = .next s) ∧
    (live → x.reg.valid = true → ok → ∃ t, run = .next t ∧ (t.queueAt q).tail = v.toNat ∧ (t.queueAt q).head = x.head ∧
      (t.queueAt q).error = x.error ∧ t.mem = s.mem) ∧
    (live → x.reg.valid = true → ¬ok → ∃ t, run = .next t ∧ t.queueAt q = { x with error := true } ∧ t.mem = s.mem) ∧
    (x.reg.valid = true → s.notifyRead q 0x008 = BitVec.ofNat 32 x.head ∧ s.notifyRead q 0x00C = BitVec.ofNat 32 x.done ∧
      s.notifyRead q 0x010 = BitVec.ofNat 32 (x.bound.toNat + 2 * x.error.toNat + 4 * x.wait.isSome.toNat) ∧
      (∀ off, off ≠ 0x008 → off ≠ 0x00C → off ≠ 0x010 → s.notifyRead q off = 0)) ∧
    (x.reg.valid = false → ∀ off, s.notifyRead q off = 0 ∧ s.notifyWrite q off v = s) ∧
    (s.nextQueue = some q → (s.hub.queues.filter fun e => e.2.bound).length < 32 →
      ∃ t, exec .queueBind s = .next t ∧ t.queueAt q = { x with bound := true }) ∧
    (s.nextQueue = none ∨ 32 ≤ (s.hub.queues.filter fun e => e.2.bound).length → exec .queueBind s = .next s) ∧
    (let unused := x.wait.isSome = true ∨ (x.calls = [] ∧ x.head = x.tail)
     (x.bound = true → unused → ∃ t, exec (.queueUnbind q) s = .next t ∧ t.queueAt q = { x with bound := false }) ∧
     (x.bound = false ∨ ¬unused → exec (.queueUnbind q) s = .next s)) ∧
    (x.reg.valid = true → x.wait = none → x.head ≠ x.tail → x.runnable = true) ∧
    ((x.reg.valid = false ∨ s.hub.warm = true) → (∀ y ∈ x.entries, y.typ ≠ 9) → exec (.completionRecord q) s = .next s) ∧
    (∀ e l, x.reg.valid = true → s.hub.warm = false → x.entries = e :: l → e.listed = false → (∀ y ∈ x.entries, y.typ ≠ 9) →
      (e.result = none → exec (.completionRecord q) s = .next s) ∧
      (∀ st d time, e.result = some (st, d, time) → ∃ t, exec (.completionRecord q) s = .next t ∧
        t.mem = (s.storeBytes (0x8000000000000 + (x.reg.cpl.toNat + e.index % 2 ^ x.reg.log2n.toNat * 32)) (bytesLE 8
          (e.index % 2 ^ 32 + e.tag.toNat * 2 ^ 32 + e.typ.toNat * 2 ^ 48 + st.toNat * 2 ^ 56) ++ bytesLE 8 d.toNat ++
            bytesLE 8 time.toNat ++ bytesLE 8 0)).mem ∧
        (t.queueAt q).done = (x.done + 1) % 2 ^ 32 ∧ (t.queueAt q).head = x.head ∧
        t.hub.notices = s.hub.notices ++ [.msix q])) ∧
    (exec (.hostMemoryAccess key false data) s = .next s) ∧
    ((∀ k, k < data.length → spaceOf (key + k) = .host ∨ inHdm (key + k) = true ∧ ∃ die, spaceOf (key + k) = .dram die) →
      exec (.hostMemoryAccess key true data) s = .next (s.storeBytes key data)) ∧
    ((∃ k, k < data.length ∧ spaceOf (key + k) ≠ .host ∧ inHdm (key + k) = false) → exec (.hostMemoryAccess key true data) s = .next s)

/-- R326, R328 to R330, R335: the entries that an interpreter acts on: how each ends, with its status and detail, and what
it has done by then. An entry that SKIPIF passes over completes SKIPPED, one with a reserved bit BADENTRY. A COPY starts, and
the interpreter goes on; then ENGINE_OPERATION_COMPLETE moves it piece by piece, and completes with the last piece or with the status
of a failure. A FENCE is accepted, and then held until every earlier entry has completed. The numbering of a COPY and its 0x04 for
another tag are the model's reading (log 28), its pieces its choice (log 6), and its 0x03 at a part that has failed its reading
(log 32). -/
def Obligations.QueueEntries : Prop :=
  (∀ (s : State) (q j k : Nat) (io : IoReply) (e : QEntry) (src dst : Word) (m : Nat) (x : Work), (s.queueAt q).entries[j]? = some e →
    e.result = none → e.copy = some (src, dst, m, x) → j < 2 ^ 16 →
    let core := s.firstCore (s.queueAt q).reg.qrcb
    let who := s.regionWho (s.queueAt q).reg.qrcb core
    let l := plainLayout who src dst m
    let err := io.status != 0
    let ev := Instr.engineOperationComplete (2048 + q) (j + 2 ^ 16 * k) io
    let lost := s.hub.lost.any (s.copyTouches who src dst m)
    (lost = true → exec ev s = .next (s.finishEntry q e.id 0x0A 0x03)) ∧
    (lost = false → l.count ≤ x.pos → exec ev s = .next (s.finishEntry q e.id 0 0)) ∧
    (lost = false → x.pos < l.count → (∀ t y, s.movePiece core who err l x (x.turn l.count (k % l.count)) (k / l.count) = .on t y → ∃ u, exec ev s = .next u ∧ u.mem = t.mem ∧
        (u.queueAt q).entries = (t.queueAt q).entries.map fun f => if f.id = e.id then { f with copy := some (src, dst, m, y) } else f) ∧
      ∀ t y c, s.movePiece core who err l x (x.turn l.count (k % l.count)) (k / l.count) = .fail t y c →
        exec ev s = .next (t.finishEntry q e.id 0x0A (c.zeroExtend 64))) ∧
    l.total = m ∧ ∀ t, t < m → l.src t = .inl (src + BitVec.ofNat 64 t) ∧ l.dst s t = addrKey who (dst + BitVec.ofNat 64 t) s) ∧
  (∀ (s : State) (q id : Nat) (ws : List Word), s.nextEntry q = some (.ok ws) → (s.queueAt q).held = some (id, ws) →
    let x := s.queueAt q
    x.calls ≠ [] ∨ x.skip = 0 → entryBad ws = false → (ws.getD 0 0).toNat % 2 ^ 8 = 10 → (∀ e ∈ x.entries, e.typ ≠ 9) →
      ((∀ e ∈ x.entries, e.result.isSome = true ∨ e.typ = 6 ∨ e.id = id) →
        exec (.fenceEntry q) s = .next ((s.takeEntry q ws).finishEntry q id 0 0)) ∧
      ((∃ e ∈ x.entries, e.result = none ∧ e.typ ≠ 6 ∧ e.id ≠ id) →
        ∃ u, exec (.fenceEntry q) s = .next u ∧ u.queueAt q = x ∧ u.mem = s.mem)) ∧
  ∀ (s : State) (q : Nat) (ws : List Word), s.nextEntry q = some (.ok ws) → (s.queueAt q).held = none →
    let x := s.queueAt q
    let t := s.takeEntry q ws
    let w := fun k => ws.getD k 0
    let ty := (w 0).toNat % 2 ^ 8
    let ends : Instr → (State → State) → BitVec 8 → Word → Prop := fun ev f st d =>
      exec ev s = .next ((f t).finishEntry q s.seq st d)
    let obls := (t.queueAt q).obls
    (∀ e ∈ [(Instr.launchEntry q, 1), (.waitobj q, 2), (.copyEntry q, 4), (.jumpEntry q, 5), (.callEntry q, 6), (.returnEntry q, 7),
        (.skipif q, 8)],
      (ty ≠ e.2 → exec e.1 s = .next s) ∧
      (ty = e.2 → x.calls = [] → x.skip ≠ 0 → ends e.1 id 0x09 0) ∧
      (ty = e.2 → x.calls ≠ [] ∨ x.skip = 0 → entryBad ws = true → ends e.1 id 0x05 0)) ∧
    (ty = 10 → (∀ e ∈ x.entries, e.typ ≠ 9) → (x.calls = [] → x.skip ≠ 0 → ends (.fenceEntry q) id 0x09 0) ∧
      (x.calls ≠ [] ∨ x.skip = 0 → entryBad ws = true → ends (.fenceEntry q) id 0x05 0)) ∧
    (x.calls = [] → (t.queueAt q).head = (x.head + 1) % 2 ^ 32) ∧
    (∀ a l, x.calls = a :: l → (t.queueAt q).head = x.head ∧ (t.queueAt q).calls = (a + 64) :: l) ∧
    (x.calls ≠ [] ∨ x.skip = 0 → entryBad ws = false →
      (ty = 0 → ends (.nopEntry q) id 0 0) ∧ (10 < ty → ends (.nopEntry q) id 0x05 0) ∧
      (ty = 1 → (∀ r, t.checkLaunch q ws = .error r → ends (.launchEntry q) id r.1 r.2) ∧
        ∀ l, t.checkLaunch q ws = .ok l → exec (.launchEntry q) s = .next (t.doLaunch q s.seq x.head l) ∧
          ∀ r ∈ t.hub.regions ++ [rcbBase t.seq], r ∈ (t.doLaunch q s.seq x.head l).hub.regions) ∧
      (ty = 2 → (∀ c, t.entryObj q (w 1) = .error c → ends (.waitobj q) id 0x0D (c.zeroExtend 64)) ∧
        ∀ key, t.entryObj q (w 1) = .ok key →
          let o := t.obj key
          (minRank obls ≤ o.rank → ends (.waitobj q) id 0x02 0) ∧
          (o.rank < minRank obls →
            (o.poisoned = true → ends (.waitobj q) (·.pokeIdle key) 0x01 (BitVec.ofNat 64 o.pcode)) ∧
            (o.poisoned = false → o.cond (w 2) = true → ends (.waitobj q) (·.pokeIdle key) 0 0) ∧
            (o.poisoned = false → o.cond (w 2) = false → o.unowed = true → ends (.waitobj q) (·.pokeIdle key) 0x03 0) ∧
            (o.poisoned = false → o.cond (w 2) = false → o.unowed = false → ∃ u, exec (.waitobj q) s = .next u ∧
              (u.queueAt q).wait = some (key, w 2) ∧
              u.hub.waiters = s.hub.waiters ++ [{ key := key, target := w 2, who := .queue q }]))) ∧
      (ty = 3 → (w 3).toNat / 2 ^ 2 % 2 ^ 6 = 0 → (w 3).toNat / 2 ^ 16 = 0 → ∀ key, t.entryObj q (w 1) = .ok key →
        let o := t.obj key
        let sub := (w 3).toNat % 4
        let code := (w 3).toNat / 2 ^ 8 % 2 ^ 8
        (sub = 0 → o.fabricKind = false → ¬(o.isBarrier = true ∧ o.owed = o.count) → registryRoom obls (.local_ key) = true →
          ends (.signalobjOblige q)
            (fun t => (t.setQueueObls q (addObl obls key (w 1) o)).changeObj key { o with owed := o.owed + 1 }) 0 0) ∧
        (sub = 0 → o.fabricKind = true → ends (.signalobjOblige q) id 0x0D 0x06) ∧
        (sub = 1 → o.fabricKind = false → ∀ e, findObl obls (.local_ key) = some e → ends (.signalobjSignal q)
          (fun t => (t.setQueueObls q (putObl obls (signalObj o e (w 2).toNat).2)).changeObj key (signalObj o e (w 2).toNat).1) 0 0) ∧
        (sub = 1 → o.fabricKind = false → findObl obls (.local_ key) = none → ends (.signalobjSignal q) id 0x04 0) ∧
        (sub = 2 → 0xF0 ≤ code → ends (.signalobjPoison q) id 0x0D 0x02) ∧
        (sub = 2 → code < 0xF0 → ∀ e, findObl obls (.local_ key) = some e → ends (.signalobjPoison q)
          (fun t => (t.setQueueObls q (putObl obls (poisonObj o e code).2)).changeObj key (poisonObj o e code).1) 0 0)) ∧
      (ty = 4 → let n := (w 3).toNat
        (n = 0 ∨ 2 ^ 40 < n → ends (.copyEntry q) id 0x05 0) ∧
        (1 ≤ n → n ≤ 2 ^ 40 → (2 ^ 60 ≤ (w 1).toNat ∨ 2 ^ 60 ≤ (w 2).toNat → ends (.copyEntry q) id 0x0A 0x04) ∧
          ((w 1).toNat < 2 ^ 60 → (w 2).toNat < 2 ^ 60 → ∃ u, exec (.copyEntry q) s = .next u ∧ u.mem = s.mem ∧
            (u.queueAt q).head = (t.queueAt q).head ∧ (u.queueAt q).wait = x.wait ∧ (u.queueAt q).entries =
              (t.queueAt q).entries.map fun e => if e.id = s.seq then { e with copy := some (w 1, w 2, n, Work.init) } else e))) ∧
      (ty = 5 → (x.calls = [] → ends (.jumpEntry q) id 0x05 0) ∧
        (x.calls ≠ [] → (w 1).toNat % 64 = 0 →
          ends (.jumpEntry q) (fun t => t.modQueue q fun y => { y with calls := w 1 :: y.calls.drop 1 }) 0 0)) ∧
      (ty = 6 → ((w 1).toNat % 64 ≠ 0 ∨ 4 ≤ x.calls.length → ends (.callEntry q) id 0x05 0) ∧
        ((w 1).toNat % 64 = 0 → x.calls = [] →
          exec (.callEntry q) s = .next (t.modQueue q fun y => { y with calls := w 1 :: y.calls })) ∧
        ((w 1).toNat % 64 = 0 → x.calls ≠ [] → x.calls.length < 4 →
          ends (.callEntry q) (fun t => t.modQueue q fun y => { y with calls := w 1 :: y.calls }) 0 0)) ∧
      (ty = 7 → (x.calls = [] → ends (.returnEntry q) id 0x05 0) ∧
        (x.calls.length = 1 → exec (.returnEntry q) s = .next ((t.finishEntry q s.seq 0 0).endCalls q)) ∧
        (2 ≤ x.calls.length → ends (.returnEntry q) (fun t => t.modQueue q fun y => { y with calls := y.calls.drop 1 }) 0 0)) ∧
      (ty = 8 → let n := (w 5).toNat
        (n = 0 ∨ 255 < n ∨ 3 < (w 4).toNat → ends (.skipif q) id 0x05 0) ∧
        (1 ≤ n → n ≤ 255 → (w 4).toNat ≤ 3 → ∀ key, t.entryKey q (w 1) 8 .read = .ok key →
          let a := BitVec.ofNat 64 (t.load key 8) &&& w 3
          let b := w 2 &&& w 3
          let holds := (w 4 = 0 ∧ a = b) ∨ (w 4 = 1 ∧ a ≠ b) ∨ (w 4 = 2 ∧ b.toNat ≤ a.toNat) ∨ (w 4 = 3 ∧ a.toNat < b.toNat)
          (holds → ends (.skipif q) (fun t => t.modQueue q fun y => { y with skip := n }) 0 0) ∧
          (¬holds → ends (.skipif q) id 0 0))) ∧
      (ty = 10 → (∀ e ∈ x.entries, e.result.isSome = true ∨ e.typ = 6) → ends (.fenceEntry q) id 0 0) ∧
      (ty = 10 → (∃ e ∈ x.entries, e.result = none ∧ e.typ ≠ 6 ∧ e.id ≠ s.seq) → (∀ e ∈ x.entries, e.typ ≠ 9) →
        ∃ u, exec (.fenceEntry q) s = .next u ∧ u.queueAt q = { t.queueAt q with held := some (s.seq, ws) } ∧ u.mem = s.mem))

/-- R345, R385: the DEBUG entries. The target must belong to the queue's OWNER; READ and WRITE need a stopped target; HALT
stops a running one when it would issue. READ and WRITE wait for a register's result, and all three for the copies of a redundant
task to be level: the entry is accepted and held until then. That DETAIL is 0 with FAULT and that a HALT whose target ends completes
with PROTECTION is the model's reading (log 29), and so is the wait for level copies (log 24). -/
def Obligations.DebugEntries : Prop :=
  ∀ (s : State) (q : Nat) (ws : List Word), s.nextEntry q = some (.ok ws) → (s.queueAt q).held = none → ws.getD 0 0 &&& 0xFFFFFFFF0000FFFF = 9 →
    (∀ k, 6 ≤ k → ws.getD k 0 = 0) → (s.queueAt q).calls ≠ [] ∨ (s.queueAt q).skip = 0 →
    let t := s.takeEntry q ws
    let w := fun k => ws.getD k 0
    let sub := (w 1).toNat
    let ends : Instr → (State → State) → BitVec 8 → Prop := fun ev f st => exec ev s = .next ((f t).finishEntry q s.seq st 0)
    let evs := [(Instr.debugHalt q, 0), (.debugRead q, 1), (.debugWrite q, 2), (.debugSetbp q, 3), (.debugClrbp q, 4), (.debugResume q, 5)]
    (∀ e ∈ evs, sub = e.2 → (w 2).toNat < 2 ^ 48 →
      (t.taskCtx ((w 2).truncate 48) = none → ends e.1 id 0x06) ∧
      ∀ m c, t.taskCtx ((w 2).truncate 48) = some (m, c) → t.owner c.rcb ≠ (t.queueAt q).reg.owner.toNat → ends e.1 id 0x06) ∧
    (∀ e ∈ evs, sub % 8 = e.2 → sub ≠ e.2 → ends e.1 id 0x05) ∧ (6 ≤ sub % 8 → ends (.nopEntry q) id 0x05) ∧
    ((w 2).toNat < 2 ^ 48 → ∀ m c, t.taskCtx ((w 2).truncate 48) = some (m, c) →
      t.owner c.rcb = (t.queueAt q).reg.owner.toNat →
      (sub = 0 → ∀ n i, t.findTask c.tid = some (n, i) →
        ((t.slotAt n i).st ≠ .faulted → (t.slotAt n i).st ≠ .object → ∃ u, exec (.debugHalt q) s = .next u ∧
          (u.ctxAt n i).dbgHalt = some (q, s.seq) ∧ (u.slotAt n i).st = (t.slotAt n i).st ∧ u.mem = s.mem ∧ u.hub = t.hub) ∧
        ((t.slotAt n i).st = .faulted → exec (.debugHalt q) s =
          .next ((t.modTask c.tid fun x => { x with dbgHalt := some (q, s.seq) }).noteHalt n i q s.seq))) ∧
      (t.stoppedAt c = none → (sub = 1 → ends (.debugRead q) id 0x0D) ∧ (sub = 2 → ends (.debugWrite q) id 0x0D) ∧
        (sub = 5 → ends (.debugResume q) id 0)) ∧
      (∀ n i, t.stoppedAt c = some (n, i) →
        (sub = 1 → ∀ y key, ctxSel (w 3).toNat = some y → (t.ctxAt n i).selPending y = false →
          s.settledBoth n i = true → t.entryKey q (w 5) 8 .write = .ok key → ends (.debugRead q) (·.store key 8 ((t.ctxAt n i).selRead y).toNat) 0) ∧
        (sub = 2 → ∀ y, ctxSel (w 3).toNat = some y → (t.ctxAt n i).selPending y = false → s.settledBoth n i = true →
          (ctxwrFault t (t.ctxAt n i) y (w 4) = none → ends (.debugWrite q) (·.modBoth n i (·.selWrite y (w 4))) 0) ∧
          (ctxwrFault t (t.ctxAt n i) y (w 4) ≠ none → ends (.debugWrite q) id 0x0D)) ∧
        (sub = 5 → s.settledBoth n i = true → ends (.debugResume q) (·.resumeBoth n i) 0) ∧
        (∀ e ∈ [(Instr.debugRead q, 1), (.debugWrite q, 2), (.debugResume q, 5)], sub = e.2 →
          s.settledBoth n i = false ∨ (sub ≠ 5 ∧ ∃ y, ctxSel (w 3).toNat = some y ∧ (t.ctxAt n i).selPending y = true) →
            ∃ u, exec e.1 s = .next u ∧ u.queueAt q = { t.queueAt q with held := some (s.seq, ws) } ∧ u.mem = s.mem)) ∧
      (sub = 3 → ((w 3).toNat < 4 → (w 4).toNat / 2 % 4 = 0 → ∀ k u, t.allocSession q c = some (k, u) →
        ends (.debugSetbp q) (fun _ => u.setBp c.tid fun x =>
          { x with bp := x.bp.set (Fin.ofNat 4 (w 3).toNat) (w 4), bpSession := k }) 0) ∧
        (4 ≤ (w 3).toNat → ends (.debugSetbp q) id 0x05)) ∧
      (sub = 4 → ((w 3).toNat < 4 → ends (.debugClrbp q)
        (fun t => t.setBp c.tid fun x => { x with bp := x.bp.set (Fin.ofNat 4 (w 3).toNat) 0 }) 0) ∧
        (4 ≤ (w 3).toNat → ends (.debugClrbp q) id 0x05)))

/-! ### The fabric (20) -/

/-- R350 to R352: what becomes of a packet at this device before its TYPE decides: one for another device stays on its
way, one of 498 µs or more is discarded, one from a peer that is not live or of another partition is dropped and counted,
as is one of an unassigned TYPE. TYPE says what acts on a packet, VN tells a group report on its way to the root from a REPORT,
and nothing comes from another device while no link carries traffic (R346). R363, R369: a group packet of no VALID entry is dropped,
and before DOWN is set it goes on to the root; a packet under way stays in `net` (log 13). R281: an access of a peer that is being
performed goes on with its next part. That an event without its cause changes nothing is the model's choice (log 4). -/
def Obligations.FabricArrivals : Prop :=
  ∀ (s : State) (p : Packet) (n : Nat),
    let t : State := { s with net := s.net.erase p }
    let drop : State := { t with hub := { t.hub with errlog := s.hub.errlog + 1 } }
    let age := (s.clk / 1600 + 4096 - p.birth.toNat) % 4096
    let ok := tabGet s.hub.peers p.src.toNat = some (.live, true)
    let here := s.hub.linked = true ∨ p.src = s.hub.peer
    let ty := p.typ.toNat
    (∀ e ∈ [(Instr.pktWrite p, ty = 0x01), (.pktRead p, ty = 0x03), (.pktRdata p, ty = 0x04), (.pktAtom p, ty = 0x05),
        (.pktAdata p, ty = 0x06), (.pktFlag p, ty = 0x07), (.pktOpen p, ty = 0x09), (.pktOpenr p, ty = 0x0A), (.pktShort p, ty = 0x0B),
        (.pktRefuse p, ty = 0x0C), (.pktReport p, ty = 0x0D ∧ p.vn ≠ 2), (.groupDecision p, ty = 0x0D ∧ p.vn = 2),
        (.pktBusy p, ty = 0x0E), (.redputPacket p, ty = 0x0F), (.redres p, ty = 0x10),
        (.unassignedPacketType p, ty = 0 ∨ 0x12 < ty)],
      (s.servesAt p = none → p.dst ≠ s.hub.peer ∨ ¬e.2 ∨ ¬here → exec e.1 s = .next s) ∧
      (s.servesAt p = none → p.dst = s.hub.peer → e.2 → here → (498 ≤ age → exec e.1 s = .next t) ∧ (age < 498 → ¬ok → exec e.1 s = .next drop))) ∧
    (∀ e ∈ [(Instr.pktMwrite p, 0x02), (.pktMflag p, 0x08), (.silent p, 0x11), (.pktDead p, 0x12)],
      (s.servesAt p = none → ty ≠ e.2 ∨ ¬here → exec e.1 s = .next s) ∧
      (s.servesAt p = none → ty = e.2 → here → (498 ≤ age → exec e.1 s = .next t) ∧ (age < 498 → ¬ok → exec e.1 s = .next drop))) ∧
    (p.dst = s.hub.peer → here → age < 498 → ok → ty = 0 ∨ 0x12 < ty → exec (.unassignedPacketType p) s = .next drop) ∧
    (s.net[n]? = some p → (498 ≤ age → exec (.packetExpiry n) s = .next { s with net := s.net.eraseIdx n }) ∧
      (age < 498 → exec (.packetExpiry n) s = .next s)) ∧
    (∀ k, s.servesAt p = some k → ∀ ev ∈ [Instr.pktWrite p, .pktMwrite p, .pktRead p], exec ev s = .next (s.serve k)) ∧
    (∀ e ∈ [(Instr.pktMwrite p, 0x02), (.pktMflag p, 0x08)], s.servesAt p = none → ty = e.2 → here → age < 498 → ok →
      ((s.groupAt (p.dst.toNat % 1024)).valid = false → exec e.1 s = .next drop) ∧
      ((s.groupAt (p.dst.toNat % 1024)).valid = true → (s.groupAt (p.dst.toNat % 1024)).isRoot = false → p.arg.getLsbD 39 = false →
        exec e.1 s = .next { t with net := t.net ++ [p] }))

/-- R160, R164, R281, R348, R353 to R357: what the packets of a live peer do here: counted writes and flags at a counter, reads
and atomics through a window, and the opening of a channel. A write or a read is performed in parts, one at an instant: the lanes
of a vector, else aligned words (log 65). A write is counted once all of it is performed, and a read is answered then, or at once
where a part is bad. A counter that was given back serves no channel for 500 µs (log 75). The bit positions in ARG, K and RTAG are
log 18, and the answers at a home that is absent or contained are log 13: the model's choices. -/
def Obligations.PeerRequests : Prop :=
  ∀ (s : State) (p : Packet), p.dst = s.hub.peer → s.age p < 498 → s.peerOk p.src = true →
    s.hub.linked = true ∨ p.src = s.hub.peer → s.servesAt p = none →
    let t : State := { s with net := s.net.erase p }
    let off := p.offset.toNat
    let n := p.payload.length
    let sends : Instr → Packet → Prop := fun ev q => ∃ u, exec ev s = .next u ∧ u.net = (t.sendPkt q).net ∧ u.mem = s.mem
    let ty := p.typ.toNat
    (ty = 0x01 → s.counterFor p false = none → ∃ u, exec (.pktWrite p) s = .next u ∧ u.mem = s.mem ∧ u.hub.errlog = s.hub.errlog + 1 ∧ u.dies = s.dies) ∧
    (∀ die ix c, s.counterFor p false = some (die, ix, c) → tabGet (s.dieAt die).counters ix = some c →
      (ty = 0x01 → p.gen ≠ c.gen ∨ p.k.toNat < c.kn ∨ c.kn + 15 < p.k.toNat → exec (.pktWrite p) s = .next t) ∧
      (ty = 0x01 → p.gen = c.gen → c.kn ≤ p.k.toNat → p.k.toNat ≤ c.kn + 15 → c.flags = [] →
        let j := p.k.toNat - c.kn
        let counts : Option (BitVec 8) → Counter := fun m => { c with
          counts := setNth c.counts j (· + 1), marks := setNth c.marks j fun x => x.or m }
        (∀ r, t.windowKeys p.src off n (·.wr) .write = .error r → ∃ u, exec (.pktWrite p) s = .next u ∧ u.mem = s.mem ∧
          tabGet (u.dieAt die).counters ix = some (counts (some r))) ∧
        (∀ keys, t.windowKeys p.src off n (·.wr) .write = .ok keys →
          exec (.pktWrite p) s = .next (t.startServe { pkt := p, ctr := some (die, ix), todo := partsOf keys, got := [], bad := false }) ∧
          ∀ w, partsOf keys = [w] → let r := t.peerPart p.payload w true
            ∃ v, exec (.pktWrite p) s = .next v ∧ v.mem = r.1.mem ∧ v.hub.serving = s.hub.serving ∧
              tabGet (v.dieAt die).counters ix = some (counts (if r.2 then some 7 else none)))) ∧
      (ty = 0x07 → Packet.frees p = false → (p.gen ≠ c.gen ∨ p.k.toNat < c.kn) → exec (.pktFlag p) s = .next t) ∧
      (ty = 0x07 → Packet.frees p = false → p.gen = c.gen → c.kn ≤ p.k.toNat → 512 ≤ s.heldFlags → (∀ f ∈ c.flags, f.pkt.k ≠ p.k) →
        sends (.pktFlag p) (busyPkt p false)) ∧
      (ty = 0x07 → Packet.frees p = false → p.gen = c.gen → c.kn ≤ p.k.toNat → c.flags = [] → s.heldFlags < 512 →
        let bad := match t.windowKeys p.src off 64 (·.wr) .write with
          | .error r => some r
          | .ok _ => none
        let held : Counter := { c with
          since := if p.k.toNat = c.kn then s.clk else c.since, flags := [{ pkt := p, refused := bad }] }
        let mark := (c.marks.headD none).or bad
        let u := t.modCounter die ix fun _ => held
        (p.k.toNat ≠ c.kn % 2 ^ 48 → exec (.pktFlag p) s = .next u) ∧
        (p.k.toNat = c.kn → c.kn < 2 ^ 48 →
          let got := (c.b.toNat + c.counts.headD 0) % 2 ^ 24
          (∀ r, mark = some r → exec (.pktFlag p) s = .next (u.refuseRelease die ix held p r)) ∧
          (mark = none → got = p.c.toNat → ∃ m, exec (.pktFlag p) s = .next ((u.applyRelease die ix held p).decideFlags die ix m)) ∧
          (mark = none → got ≠ p.c.toNat → (got + 2 ^ 24 - p.c.toNat) % 2 ^ 24 < 2 ^ 23 →
            exec (.pktFlag p) s = .next (u.refuseRelease die ix held p 5)) ∧
          (mark = none → 2 ^ 23 ≤ (got + 2 ^ 24 - p.c.toNat) % 2 ^ 24 → exec (.pktFlag p) s = .next u)))) ∧
    (ty = 0x03 → ∀ r, t.windowKeys p.src off p.bytes.toNat (·.rd) .read = .error r →
      sends (.pktRead p) { answer p 0x0C with arg := BitVec.ofNat 40 r.toNat }) ∧
    (ty = 0x03 → ∀ keys, t.windowKeys p.src off p.bytes.toNat (·.rd) .read = .ok keys →
      exec (.pktRead p) s = .next (t.startServe { pkt := p, ctr := none, todo := partsOf keys, got := [], bad := false }) ∧
      ∀ w, partsOf keys = [w] →
        (s.dataFault w.key w.n false = none →
          sends (.pktRead p) { answer p 0x04 with bytes := p.bytes, payload := bytesLE w.n (s.load w.key w.n) }) ∧
        (s.dataFault w.key w.n false ≠ none → sends (.pktRead p) { answer p 0x04 with arg := 1 })) ∧
    (∀ (x : Serve) (k : Nat) (w v : ServePart) (l : List ServePart), s.hub.serving[k]? = some x → x.todo = w :: v :: l → x.pkt.typ ≠ 0x02 →
      (∀ c, x.ctr = some c → let r := s.peerPart x.pkt.payload w (!(v :: l).any fun z => z.line == w.line)
        ∃ u, s.serve k = u ∧ u.mem = r.1.mem ∧ u.dies = s.dies ∧
          u.hub.serving = s.hub.serving.set k { x with todo := v :: l, bad := x.bad || r.2 }) ∧
      (x.ctr = none → s.dataFault w.key w.n false = none → ∃ u, s.serve k = u ∧ u.mem = s.mem ∧ u.net = s.net ∧
        u.hub.serving = s.hub.serving.set k { x with todo := v :: l, got := x.got ++ bytesLE w.n (s.load w.key w.n) })) ∧
    (∀ (x : ServePart) (b : Bool), s.dropsAll x.line = false → s.dropsStore x.line x.len = false →
      (s.peerPart p.payload x b).1.mem = s.put x.key x.n (ofBytes ((p.payload.drop x.place).take x.n)) ∧ (s.peerPart p.payload x b).2 = false) ∧
    (∀ die ix clk, clk < s.clk + 500 * 1600 → ((s.dropCounter die ix).dieAt die).freeCtr clk ≠ some ix) ∧
    (ty = 0x07 → s.counterFor p false = none → exec (.pktFlag p) s = .next (t.logDrop.report false p (.refused 6))) ∧
    (ty = 0x05 → ∀ op key keys, atomOf p = some op → t.windowKeys p.src off op.w (·.at_) .write = .ok (key :: keys) →
      objHome key = true → key % op.w = 0 → s.dataFault key op.w false = none →
      ∃ u, exec (.pktAtom p) s = .next u ∧
        u.net = (t.sendPkt { answer p 0x06 with bytes := BitVec.ofNat 16 op.w, payload := bytesLE op.w (s.load key op.w) }).net ∧
        u.mem = match (op.result (s.load key op.w)).1 with
          | some v => (s.store key op.w v).mem
          | none => s.mem) ∧
    (ty = 0x05 → atomOf p = none → sends (.pktAtom p) { answer p 0x0C with arg := 2 }) ∧
    (ty = 0x05 → ∀ op r, atomOf p = some op → t.windowKeys p.src off op.w (·.at_) .write = .error r →
      sends (.pktAtom p) { answer p 0x0C with arg := BitVec.ofNat 40 r.toNat }) ∧
    (ty = 0x09 → ∀ r, t.windowKeys p.src off 64 (·.wr) .write = .error r →
      sends (.pktOpen p) { answer p 0x0C with arg := BitVec.ofNat 40 (r.toNat + 256) }) ∧
    (ty = 0x09 → ∀ key keys, t.windowKeys p.src off 64 (·.wr) .write = .ok (key :: keys) →
      ((s.obj key).valid = false ∨ (s.obj key).kind ≠ 4 →
        sends (.pktOpen p) { answer p 0x0C with arg := BitVec.ofNat 40 (3 + 256) }) ∧
      (∀ d ix, key % 64 = 0 → (s.obj key).valid = true → (s.obj key).kind = 4 →
        spaceOf key = .dram d ∨ (∃ x, spaceOf key = .loc x ∧ dieOfCore x = d) → (s.dieAt d).freeCtr s.clk = some ix →
        let group := p.arg.getLsbD 0
        let c : Counter :=
          { peer := p.src, handle := if group then some (p.rtag.truncate 12) else none, recorded := group, obj := key
            reliable := p.arg.getLsbD 1, b := 0, kn := 1, counts := List.replicate 16 0, marks := List.replicate 16 none, gen := 0
            tries := 0, since := s.clk, flags := [] }
        let v := if group then t.forget p.src (p.rtag.truncate 12) else t
        exec (.pktOpen p) s = .next (((v.modDie d fun x => { x with counters := tabPut x.counters ix c }).changeObj key
          { s.obj key with owed := (s.obj key).owed + 1 }).sendPkt { answer p 0x0A with
            ctr := BitVec.ofNat 14 (d * 4096 + ix), gen := 0, k := BitVec.ofNat 48 (s.obj key).rank })))

/-- R160, R223, R225, R354, R357 to R359, R371: what the answers of a live peer do here: data and old values reach their
registers, an opened channel is live, a refused one fails, a FAILED release loses its channel, and reports and results are
posted. R358: a SHORT replays the copies of its own channel. The bit positions in packets are log 18, and that a failed group open
waits for the other answers, with which packets a resend is for, is log 48: the model's choices. -/
def Obligations.PeerAnswers : Prop :=
  ∀ (s : State) (p : Packet) (i : Fin 16) (a : Access) (d : GIx), p.dst = s.hub.peer → s.age p < 498 → s.peerOk p.src = true →
    s.hub.linked = true ∨ p.src = s.hub.peer →
    let ty := p.typ.toNat
    let t : State := { s with net := s.net.erase p }
    let n := p.dstEp.toNat
    let waits := (s.slotAt n i).st ≠ .empty ∧ (s.ctxAt n i).trail = false ∧ (s.ctxAt n i).accs = [a] ∧
      (∀ j, j ≠ i → (s.ctxAt n j).accs = []) ∧ rtagOf a.rid 0 = p.rtag ∧ (s.coreAt n).asking (answersAsk p) = none
    let fails : Instr → BitVec 8 → Prop := fun ev c => exec ev s = .next (t.failAcc n i a c (a.fabAddr (some p.rtag)))
    (waits → ∀ len sx off q, a.op = .loadG d len sx (.fab p.src off) q →
      (ty = 0x04 → p.arg.getLsbD 0 = false → exec (.pktRdata p) s = .next (t.finishG n i a d (extend len sx (ofBytes p.payload)) 0)) ∧
      (ty = 0x04 → p.arg.getLsbD 0 = true → fails (.pktRdata p) 0x21) ∧ (ty = 0x0C → p.arg.toNat / 2 ^ 8 % 4 = 0 → fails (.pktRefuse p) 0x06)) ∧
    (waits → ∀ op off q, a.op = .atomic d op (.fab p.src off) q →
      (ty = 0x06 → p.arg.getLsbD 0 = false → exec (.pktAdata p) s =
        .next (t.finishG n i a d (op.oldWord (ofBytes p.payload)) (op.result (ofBytes p.payload)).2)) ∧
      (ty = 0x06 → p.arg.getLsbD 0 = true → fails (.pktAdata p) 0x21) ∧ (ty = 0x0C → p.arg.toNat / 2 ^ 8 % 4 = 0 → fails (.pktRefuse p) 0x06)) ∧
    (waits → ty = 0x04 → ∀ off len, a.op = .ask (.peer p.src off len) → p.arg.getLsbD 0 = false →
      ∃ u, exec (.pktRdata p) s = .next u ∧ (u.ctxAt n i).answered = some { err := none, words := wordsOf p.payload } ∧
        (u.ctxAt n i).accs = [] ∧ (u.ctxAt n i).g = (s.ctxAt n i).g ∧ u.mem = s.mem) ∧
    (ty = 0x0A → s.chanAt p.rtag.toNat = none → exec (.pktOpenr p) s = .next (t.sendPkt (freePkt n p.src p.ctr))) ∧
    (∀ c, s.chanAt p.rtag.toNat = some c → c.live = false → c.group = false → c.opening = [p.src] →
      (ty = 0x0A → exec (.pktOpenr p) s = .next (
        let c1 := { c with ctr := p.ctr, gen := 0, rank := p.k.truncate 32, opening := [], opened := [(p.src, p.ctr)] }
        (t.modChan p.rtag.toNat fun _ => c1).finishOpen p.rtag.toNat c1)) ∧
      (ty = 0x0C → p.arg.toNat / 2 ^ 8 % 4 = 1 → exec (.pktRefuse p) s =
        .next (t.failOpen p.rtag.toNat c (if p.arg.toNat % 2 ^ 8 = 3 then 0x06 else 0x0A)))) ∧
    (∀ h c, s.chanTo p.src p.ctr = some (h, c) →
      (ty = 0x0C → p.arg.toNat / 2 ^ 8 % 4 = 2 → exec (.pktRefuse p) s = .next (t.failChan h c true)) ∧
      (ty = 0x0B → p.arg.getLsbD 0 = true → p.arg.getLsbD 1 = false → exec (.pktShort p) s = .next (t.failChan h c false)) ∧
      (∃ u, t.failChan h c false = u ∧ ∀ y, s.chanAt h = some y → h < 4096 → u.chanAt h = some { y with failed := true })) ∧
    (ty = 0x0B → p.arg.getLsbD 0 = false → s.shortChan p (p.arg.getLsbD 1) = none → exec (.pktShort p) s = .next t) ∧
    (ty = 0x0B → p.arg.getLsbD 0 = false → ∀ id, s.shortChan p (p.arg.getLsbD 1) = some id →
      ∃ u, exec (.pktShort p) s = .next u ∧ u.mem = s.mem ∧ u.cores = s.cores ∧
        u.net = ((s.dies.flatMap fun e => replayOf e.2.replay id p.k.toNat).foldl (fun t q => t.sendPkt { q with gen := p.gen }) t).net ∧
        ∀ r ∈ s.hub.reports, r.chan ≠ id → r ∈ u.hub.reports) ∧
    (∀ h c, p.arg.getLsbD 1 = false → s.chanTo p.src p.ctr = some (h, c) → s.shortChan p false = some c.id) ∧
    (ty = 0x0E → ∃ u, exec (.pktBusy p) s = .next u ∧ u.hub.busy = s.hub.busy ++ [{ busyFlag p with birth := s.birth }] ∧ u.mem = s.mem ∧ u.net = t.net) ∧
    (∀ k r, ty = 0x0D → p.vn ≠ 2 → s.hub.reports[k]? = some r → r.core = n → r.tag = p.rtag → r.k = p.k → r.group = p.arg.getLsbD 33 →
      (r.group = false → r.dest = p.src ∧ r.ctr = p.ctr) →
      (r.group = true → p.ctr.toNat = r.handle % 4096 ∧ p.src = (s.groupAt (r.dest.toNat % 1024)).root) →
      (∀ j x, j < k → s.hub.reports[j]? = some x → s.answersReport p x = false) →
      exec (.pktReport p) s = .next ((t.modHub fun h => { h with reports := s.hub.reports.eraseIdx k }).postReport r (outcomeOf p))) ∧
    (ty = 0x0D → p.vn ≠ 2 → (∀ r ∈ s.hub.reports, r.core ≠ n ∨ r.tag ≠ p.rtag ∨ r.k ≠ p.k) → exec (.pktReport p) s = .next t) ∧
    (ty = 0x10 → exec (.redres p) s = .next (t.endRed n p.rtag (p.k.toNat / 2 ^ 32) p.k.toNat (ofBytes (p.payload.take 4)) (ofBytes (p.payload.drop 4)))) ∧
    ((s.coreAt n).redputs.find? (fun e => e.1 == p.rtag) = none → ∀ st res present nans, s.endRed n p.rtag st res present nans = s) ∧
    (∀ core e0 e1, (s.coreAt core).sealed = false → (s.coreAt core).mailbox.length < 32 → ∃ u, s.post core e0 e1 true = u ∧
      (u.coreAt core).mailbox = (s.coreAt core).mailbox ++ [(e0, e1)] ∧ (u.coreAt core).pending = (s.coreAt core).pending - 1)

/-- R346, R355, R357 to R359, R363 to R367: multicast at a group's root, the merging of a group's decisions, reductions,
and what the timers of the fabric do. The bit positions in packets are log 18; the members of a group, the branches that a timeout
counts and the packets in `net` are log 13: the model's choices. -/
def Obligations.GroupsAndTimers : Prop :=
  ∀ (s : State) (p : Packet) (n ix : Nat) (die : Fin 4) (link : Nat),
    let t : State := { s with net := s.net.erase p }
    let fresh := s.age p < 498 ∧ s.peerOk p.src = true ∧ (s.hub.linked = true ∨ p.src = s.hub.peer)
    let e := s.groupAt (p.dst.toNat % 1024)
    let q := { p with arg := p.arg ||| BitVec.ofNat 40 (2 ^ 39) }
    let branches := ((List.range 6).filter fun i => e.fwd.getLsbD i).length
    (fresh → s.servesAt p = none → e.valid = true → (e.isRoot = true ∨ p.arg.getLsbD 39 = true) →
      let copies : State → State := fun u => { u with net := u.net ++ List.replicate branches q }
      let m := t.mergeOf p Outcome3.none_
      let v := if Packet.wantsReport p then ({ t with hub := { t.hub with merges := t.hub.merges ++ [m] } } : State).tryMerge m else t
      (e.local_ = false → (p.typ = 0x02 → exec (.pktMwrite p) s = .next (copies t)) ∧
        (p.typ = 0x08 → exec (.pktMflag p) s = .next (copies v))) ∧
      (e.local_ = true → (p.typ = 0x02 → exec (.pktMwrite p) s = .next ((copies t).takeWrite q true)) ∧
        (p.typ = 0x08 → exec (.pktMflag p) s = .next ((copies v).takeFlag q true)))) ∧
    (fresh → p.dst = s.hub.peer → p.typ = 0x0D → p.vn = 2 → exec (.groupDecision p) s = .next (t.joinMerge
      { t.mergeOf p (outcomeOf p) with src := p.offset.truncate 12, group := p.offset.toNat / 2 ^ 12 % 1024 } (some p.src))) ∧
    (∀ m o b, (s.hub.merges.find? (Merge.same o) = some m) →
      let x : Merge := { m with out := m.out.merge o.out, seen := m.seen ++ b.toList, own := m.own || b.isNone }
      x.out.total < (s.groupAt m.group).sub.toNat → s.deadBranches x = [] → ∃ u, s.joinMerge o b = u ∧ u.net = s.net ∧
        u.hub.merges = s.hub.merges.map fun y => if Merge.same o y then x else y) ∧
    (∀ m, s.hub.merges[n]? = some m → (m.out.total ≤ (s.groupAt m.group).sub.toNat) →
      (s.clk < m.since + (2 * s.holdMs + 1) * 1600000 → exec (.groupReportTimeout n) s = .next s) ∧
      (m.since + (2 * s.holdMs + 1) * 1600000 ≤ s.clk → ∃ u o, exec (.groupReportTimeout n) s = .next u ∧
        u.hub.merges = s.hub.merges.filter (fun x => !Merge.same m x) ∧
        o.total = (s.groupAt m.group).sub.toNat ∧ o.applied = m.out.applied ∧ o.refused = m.out.refused ∧
        u.net = (s.sendPkt (if (s.groupAt m.group).isRoot then finalPkt { m with out := o } else s.mergePkt { m with out := o })).net)) ∧
    (∀ r, s.hub.reports[n]? = some r →
      (s.clk < r.since + (4 * s.holdMs + 1) * 1600000 → exec (.reportTimeout n) s = .next s) ∧
      (r.since + (4 * s.holdMs + 1) * 1600000 ≤ s.clk → exec (.reportTimeout n) s = .next ((s.modHub fun h =>
        { h with reports := h.reports.eraseIdx n }).postReport r (s.missingReport r 5)))) ∧
    (s.hub.reports[n]? = none → exec (.reportTimeout n) s = .next s) ∧
    (∀ x, s.hub.busy[n]? = some x → s.age x < 10 → exec (.flagResend n) s = .next s) ∧
    (∀ x, s.hub.busy[n]? = some x → 10 ≤ s.age x → ∃ u, exec (.flagResend n) s = .next u ∧ u.hub.busy = s.hub.busy.eraseIdx n ∧
      u.net = (s.sendPkt x).net ∧ u.mem = s.mem) ∧
    (∃ u, exec (.replayLogRetire die) s = .next u ∧ u.mem = s.mem ∧ ∀ r, r ∈ (u.dieAt die.val).replay ↔ r ∈ (s.dieAt die.val).replay ∧
      ∀ c, r.left = some c → s.clk < c + (4 * s.holdMs + 1) * 1600000) ∧
    (tabGet (s.dieAt die.val).counters ix = none → exec (.holdTimeout die ix) s = .next s ∧ exec (.shortResend die ix) s = .next s) ∧
    (∀ c, tabGet (s.dieAt die.val).counters ix = some c →
      let late := c.since + s.holdMs * 1600000 ≤ s.clk
      let mark : Nat := c.handle.isSome.toNat * 2
      (c.flags = [] ∨ ¬late → exec (.holdTimeout die ix) s = .next s) ∧
      (∀ f, c.flags = [f] → f.pkt.k.toNat = c.kn → c.kn < 2 ^ 48 → late → c.reliable = true → c.tries < 3 →
        ∃ u, exec (.holdTimeout die ix) s = .next u ∧ tabGet (u.dieAt die.val).counters ix = some { c with
            gen := c.gen + 1, tries := c.tries + 1, since := s.clk, flags := [], counts := List.replicate 16 0
            marks := List.replicate 16 none } ∧
          u.net = (s.sendPkt { answer f.pkt 0x0B with
            k := BitVec.ofNat 48 c.kn, gen := c.gen + 1, arg := BitVec.ofNat 40 mark }).net ∧ u.mem = s.mem) ∧
      (∀ f, c.flags = [f] → f.pkt.k.toNat = c.kn → c.kn < 2 ^ 48 → late → (c.reliable = false ∨ 3 ≤ c.tries) →
        let v := (s.dropOwed c.obj (some 0xFA)).report c.handle.isSome f.pkt (.timedOut 5)
        let w := if c.handle.isSome then v else v.sendPkt { answer f.pkt 0x0B with k := BitVec.ofNat 48 c.kn, gen := c.gen, arg := 1 }
        exec (.holdTimeout die ix) s = .next (w.freeCounter die.val ix c (some f.pkt.k))) ∧
      (c.reliable = true → c.tries ≠ 0 → c.flags = [] → (∀ k ∈ c.counts, k = 0) → late →
        ∃ u, exec (.shortResend die ix) s = .next u ∧ u.mem = s.mem ∧ tabGet (u.dieAt die.val).counters ix = some { c with since := s.clk } ∧
          u.net = (s.sendPkt { Packet.zero with
            typ := 0x0B, dst := c.peer, k := BitVec.ofNat 48 c.kn, gen := c.gen, arg := BitVec.ofNat 40 mark
            ctr := (c.handle.map fun h => h.zeroExtend 14).getD (BitVec.ofNat 14 (die.val * 4096 + ix)) }).net) ∧
      (c.reliable = false ∨ c.tries = 0 ∨ ¬late → exec (.shortResend die ix) s = .next s)) ∧
    (p.dst = s.hub.peer → p.typ = 0x0F → fresh →
      let x := redputOf p
      let refuse := fun st => exec (.redputPacket p) s = .next (t.sendPkt (resPkt p.src p.srcEp p.rtag x.tag st 0x7FC00000 0 0))
      (s.redSlotFor x = none → refuse 0x08) ∧
      (∀ m, s.redSlotFor x = some (m, none) → 1 < (s.groupAt x.group).nmem.toNat →
        let y := RedSlot.add { group := x.group, tag := x.tag, op := x.op, ign := x.ign, timeout := x.timeout, present := 0, nans := 0
                               vals := [], owed := (s.groupAt x.group).nmem.toNat, closed := false, since := s.clk, from_ := [] } x p
        exec (.redputPacket p) s = .next { t with hub := { t.hub with reds := tabPut t.hub.reds m y } }) ∧
      (∀ m r, s.redSlotFor x = some (m, some r) →
        (r.closed = true → refuse 0x04) ∧
        (r.closed = false → (r.op ≠ x.op ∨ r.ign ≠ x.ign ∨ r.timeout ≠ x.timeout ∨ r.present.getLsbD x.midx = true) → refuse 0x20) ∧
        (r.closed = false → r.op = x.op → r.ign = x.ign → r.timeout = x.timeout → r.present.getLsbD x.midx = false →
          let y := r.add x p
          (y.from_.length < (s.groupAt x.group).nmem.toNat →
            exec (.redputPacket p) s = .next { t with hub := { t.hub with reds := tabPut t.hub.reds m y } }) ∧
          ((s.groupAt x.group).nmem.toNat ≤ y.from_.length → exec (.redputPacket p) s = .next (t.closeRed m y))))) ∧
    (∀ r, tabGet s.hub.reds n = some r →
      (r.closed = false → (r.since + (r.timeout + 1) * 1600000 ≤ s.clk → exec (.reductionTimeout n) s = .next (s.closeRed n r)) ∧
        exec (.reductionSlotFree n) s = .next s) ∧
      (r.closed = true ∨ s.clk < r.since + (r.timeout + 1) * 1600000 → exec (.reductionTimeout n) s = .next s) ∧
      (r.closed = true → s.clk < r.since + 128 * 1600000 → exec (.reductionSlotFree n) s = .next s) ∧
      (r.closed = true → r.since + 128 * 1600000 ≤ s.clk → exec (.reductionSlotFree n) s = .next { s with hub := { s.hub with reds := tabDel s.hub.reds n } })) ∧
    exec (.heartbeat link) s = .next s ∧ exec (.flitResend link) s = .next s ∧
    exec (.linkRetrain link) s = .next { s with hub := { s.hub with links := tabPut s.hub.links link true } }

/-- R311, R346, R360, R361, R393: links, silence and death, and the loss of a part. A link that goes down, the last one to its
neighbour or not, and what follows from enough SILENT. R361: the effects of a death, each where it is the only one that the device has
for this peer. The loss of a core, a cluster or a die contains its cores, ends the runs of its engines, and treats the tasks of the
regions on it as those of a contained core. The packets in the buffers of a link that goes down are log 13; the tasks, the bytes and the
queues of a lost part are log 32: the model's choices. -/
def Obligations.LinksAndDeath : Prop :=
  ∀ (s : State) (p : Packet) (link port : Nat) (x : BitVec 12),
    let t : State := { s with net := s.net.erase p }
    let fresh := s.age p < 498 ∧ s.peerOk p.src = true ∧ (s.hub.linked = true ∨ p.src = s.hub.peer)
    let u : State := { s.dropBuffers with hub := { s.hub with
      links := tabPut s.hub.links link false, notices := s.hub.notices ++ [.linkDown link, Notice.ofEvent 1] } }
    let beyond := s.hub.neighbour s.hub.peer.toNat (link / 8)
    (∀ cap up, tabGet s.hub.expanders port = some (cap, up) → exec (.expanderLinkDown port) s =
      .next { s with hub := { s.hub with expanders := tabPut s.hub.expanders port (cap, false) } }) ∧
    (tabGet s.hub.expanders port = none → exec (.expanderLinkDown port) s = .next s) ∧
    (∀ j, j < 8 → 8 * (link / 8) + j ≠ link → tabGet s.hub.links (8 * (link / 8) + j) = some true → link / 8 < 6 →
      exec (.linkDown link) s = .next u ∧ exec (.partFailure (.link link)) s = .next u) ∧
    (link / 8 < 6 → beyond ≠ s.hub.peer.toNat → (∀ i j, i < 6 → j < 8 → s.hub.neighbour s.hub.peer.toNat i = beyond → 8 * i + j ≠ link →
        tabGet s.hub.links (8 * i + j) ≠ some true) →
      exec (.linkDown link) s = .next ((u.sendPkt { Packet.zero with
        typ := 0x11, k := BitVec.ofNat 48 beyond, offset := s.hub.peer.zeroExtend 48 }).noteSilent (BitVec.ofNat 12 beyond) s.hub.peer)) ∧
    ((∀ e ∈ s.hub.silent, s.peerDead e.1 = true ∨ s.allSilent e.1 = false) → s.recheckDeaths = s) ∧
    (∀ e, s.hub.silent = [e] → s.peerDead e.1 = false → s.allSilent e.1 = true → s.recheckDeaths = s.declareDead e.1) ∧
    (∀ die chan bank, let part := Part.bank die chan bank
      (∀ e ∈ s.hub.queues, e.2.bound = false) → ∃ v, exec (.partFailure part) s = .next v ∧ v.cores = s.cores ∧ v.clusters = s.clusters ∧
        v.hub = { s.hub with lost := s.hub.lost ++ [part], losses := .part part s.free :: s.hub.losses } ∧
        ∀ k, v.byte k = if Part.holds part k then memRead s.mem k ^^^ Config.lostByte s.free k else s.byte k) ∧
    (∀ part : Part, (∀ l, part ≠ .link l) →
      let rs := s.hub.regions.filter (s.regionOn part)
      let cores := (Part.lost part).1
      exec (.partFailure part) s = .next (((s.tasksBeside part rs).foldl State.loseTask
        (cores.foldl State.contain (s.loseRuns part rs))).losePart part).loseQueues ∧
      (∀ rcb, rcb ∈ rs ↔ rcb ∈ s.hub.regions ∧
        ((∃ n ∈ cores, (∃ c ∈ (s.coreAt n).tasks, c.rcb = rcb) ∨ ∃ a ∈ (s.coreAt n).alloc, a.1 = rcb) ∨
          ∃ n ∈ (Part.lost part).2, ∃ h : Fin 16, ∃ y, (s.clusterAt n).herds[h] = some y ∧ y.rcb = rcb ∧ y.run.isSome = true))) ∧
    (∀ n k, (k ∈ (Part.lost (.core n)).1 ↔ k = n) ∧ (Part.lost (.core n)).2 = [] ∧
      (k ∈ (Part.lost (.cluster n)).1 ↔ k / 8 = n) ∧ (k ∈ (Part.lost (.cluster n)).2 ↔ k = n) ∧
      (k ∈ (Part.lost (.die n)).1 ↔ k / 512 = n) ∧ (k ∈ (Part.lost (.die n)).2 ↔ k / 64 = n)) ∧
    (∀ q, (∀ e ∈ s.hub.waiters, e.who ≠ .queue q) → (s.rebindQueue q).queueAt q = Queue.warm s.time (s.queueAt q)) ∧
    (fresh → p.typ = 0x11 → s.hub.silent.contains (p.k.truncate 12, p.offset.truncate 12) = true → exec (.silent p) s = .next t) ∧
    (fresh → p.typ = 0x11 → s.hub.silent.contains (p.k.truncate 12, p.offset.truncate 12) = false →
      exec (.silent p) s = .next (({ t with net := t.net ++ [p] }).noteSilent (p.k.truncate 12) (p.offset.truncate 12))) ∧
    (fresh → p.typ = 0x12 → exec (.pktDead p) s = .next ((({ t with net := t.net ++ [p] }).declareDead p.src).recheckDeaths)) ∧
    (∀ part, tabGet s.hub.peers x.toNat = some (.dead, part) → s.declareDead x = s) ∧
    (s.peerDead x = false →
      let named : State := { s with hub := { s.hub with
        peers := tabPut s.hub.peers x.toNat (.dead, ((tabGet s.hub.peers x.toNat).map (·.2)).getD false), notices := s.hub.notices ++ [.dead x.toNat] } }
      let idle : Core → Prop := fun c => (∀ (i : Fin 16), ∀ a ∈ c.slots[i].ctx.accs, waitsFor x a = false) ∧ c.images = [] ∧
        (∀ o ∈ c.engs, ∀ a ∈ o.work.asks, a.peer ≠ x)
      let cores := ∀ e ∈ s.cores, idle e.2 ∧ ∀ r ∈ e.2.redputs, (s.groupAt r.2.2).root ≠ x
      let chans := ∀ e ∈ s.allChans, e.2.group = false ∧ e.2.dest ≠ x
      let counters := ∀ e ∈ s.allCounters, e.2.2.peer ≠ x
      let from_ : ReportWait → BitVec 12 := fun r => if r.group then (s.groupAt (r.dest.toNat % 1024)).root else r.dest
      let reports := ∀ r ∈ s.hub.reports, from_ r ≠ x
      (cores → chans → counters → reports → s.hub.merges = [] → s.declareDead x = named) ∧
      (∀ n c i a, s.cores = [(n, c)] → c.slots[(i : Fin 16)].st ≠ .empty → c.slots[i].st ≠ .settle → c.slots[i].ctx.trail = false → c.slots[i].ctx.accs = [a] →
        waitsFor x a = true → (∀ j : Fin 16, j ≠ i → c.slots[j].ctx.accs = []) → c.images = [] → c.engs = [] → c.redputs = [] →
        chans → counters → reports → s.hub.merges = [] → s.declareDead x = named.failAcc n i a 0x0B (a.fabAddr none)) ∧
      (∀ h c, cores → s.allChans = [(h, c)] → c.group = false → c.dest = x → counters → reports → s.hub.merges = [] →
        (c.live = true → s.cores = [] → s.declareDead x = named.failChan h c true)) ∧
      (∀ h c, cores → s.allChans = [(h, c)] → c.group = true → c.live = true → counters → reports → s.hub.merges = [] →
        s.declareDead x = named.modChan h fun _ => { c with
          opened := c.opened.filter fun o => o.1 != x, opening := c.opening.filter (· != x) }) ∧
      (∀ die ix c, s.cores = [] → chans → s.allCounters = [(die, ix, c)] → c.peer = x → s.hub.reports = [] → s.hub.merges = [] →
        s.hub.waiters = [] → s.hub.regions = [] → s.declareDead x = (named.dropCounter die ix).dropOwed c.obj (some 0xFC)) ∧
      (∀ r, s.cores = [] → chans → counters → s.hub.reports = [r] → from_ r = x → s.hub.merges = [] →
        s.declareDead x = ({ named with hub := { named.hub with reports := [] } } : State).postReport r (s.missingReport r 4)) ∧
      (∀ m, cores → chans → counters → reports → s.hub.merges = [m] → s.declareDead x = named.tryMerge m) ∧
      (∀ n c r, s.cores = [(n, c)] → idle c → c.redputs = [r] → (s.groupAt r.2.2).root = x → chans → counters → reports → s.hub.merges = [] →
        s.declareDead x = named.endRed n r.1 0x08 0x7FC00000 0 0))
/-! ### The platform (18, 23, 24) -/

/-- R268, R269, R275, R307 to R323, R383, R384, R397: page walks, the freeze bit and its copies, SAMPCTL and the sampling
pulse, the counters, refresh, temperature, the scrubber and power grants. What a scrub event says of host memory is log 54, and that
a grant beyond the package's 2,000 W is not made is log 77: the model's readings. -/
def Obligations.PlatformEvents : Prop :=
  ∀ (s : State) (cl n key : Nat) (die : Fin 4) (layer : Fin 8) (root va : Word) (b : Bool) (v : BitVec 8),
    let d := s.dieAt die.val
    let core := s.coreAt n
    (underAperture va.toNat = true → exec (.pageWalk cl root va) s = .next s) ∧
    (∀ e, underAperture va.toNat = false → s.walk root (va.toNat % 2 ^ 56) levels root.toNat = .ok e → ∃ t, exec (.pageWalk cl root va) s = .next t ∧
      e ∈ (t.clusterAt cl).tlb ∧ (t.clusterAt cl).tlb.length ≤ 1024 ∧ t.mem = s.mem ∧
      ∀ x ∈ (t.clusterAt cl).tlb, x = e ∨ x ∈ (s.clusterAt cl).tlb) ∧
    (∀ c, s.walk root (va.toNat % 2 ^ 56) levels root.toNat = .error c → exec (.pageWalk cl root va) s = .next s) ∧
    (∃ t, exec (.wsfrzWrite die b) s = .next t ∧ t.dieAt die.val = { d with wsfrz := b } ∧ t.cores = s.cores ∧ t.mem = s.mem) ∧
    (∃ t, exec (.wsfrzCopyUpdate n die) s = .next t ∧ (t.coreAt n).frz[die] = d.wsfrz ∧
      (∀ e, e ≠ die → (t.coreAt n).frz[e] = core.frz[e]) ∧ (t.coreAt n).slots = core.slots ∧ t.mem = s.mem) ∧
    (v.getLsbD 7 = true → v.toNat % 32 < 10 ∨ 24 < v.toNat % 32 → exec (.sampctlWrite v) s = .next s) ∧
    (v.getLsbD 7 = false ∨ (10 ≤ v.toNat % 32 ∧ v.toNat % 32 ≤ 24) → ∃ t, exec (.sampctlWrite v) s = .next t ∧
      t.hub.sampctl = v &&& 0x9F ∧ (t.dieAt die.val).ring = { d.ring with seq := 0, full := true } ∧ t.mem = s.mem) ∧
    (∃ t, exec (.pcntclr n) s = .next t ∧ (t.coreAt n).pcnt2 = 0 ∧ (t.coreAt n).pcnt3 = 0 ∧ (t.coreAt n).pcnt5 = 0 ∧
      (t.coreAt n).pcnt6 = 0 ∧ (t.coreAt n).pcnt7 = 0 ∧ (t.coreAt n).pcnt4At = (s.clusterAt (n / 8)).pcnt4 ∧
      (t.coreAt n).slots = core.slots ∧ t.mem = s.mem) ∧
    (s.hub.sampctl.getLsbD 7 = false → exec .samplingPulse s = .next s) ∧
    (s.hub.sampctl.getLsbD 7 = true → ∀ k : Fin 16, n ∈ s.coreNums → (s.slotAt n k).st ≠ .empty → ∃ t, exec .samplingPulse s = .next t ∧
      (t.slotAt n k).sample = some ((s.slotAt n k).st.code, (s.ctxAt n k).pc, (s.ctxAt n k).tid) ∧
      (t.dieAt die.val).ring.seq = d.ring.seq + 1 ∧ (t.dieAt die.val).ring.full = false ∧ (t.ctxAt n k) = s.ctxAt n k) ∧
    (∃ t, exec (.weightStoreRefresh n key) s = .next t ∧ t.mem = s.mem ∧ ∀ m, core.pcnt6 ≤ (t.coreAt n).pcnt6 ∧
      (t.coreAt m).slots = (s.coreAt m).slots) ∧
    exec (.dramRefresh cl n key) s = .next s ∧
    (∀ c : Int, ∃ t, exec (.temperatureChange die layer c) s = .next t ∧ (85 < c → (t.dieAt die.val).period[layer] = 16) ∧
      (c < 80 → (t.dieAt die.val).period[layer] = 32) ∧ (80 ≤ c → c ≤ 85 → (t.dieAt die.val).period = d.period) ∧ t.mem = s.mem) ∧
    (dieOfKey key = some die.val → exec (.scrub key .clean) s = .next s ∧ exec (.scrub key .racedByWrite) s = .next s ∧
      (∃ t, exec (.scrub key .correctable) s = .next t ∧ t.mem = s.mem ∧ t.poison = s.poison ∧
        (t.dieAt die.val).corrected = d.corrected + 1) ∧
      (s.poisoned key 1 = true → exec (.scrub key .uncorrectable) s = .next s) ∧
      (s.poisoned key 1 = false → ∃ t, exec (.scrub key .uncorrectable) s = .next t ∧ t.mem = s.mem ∧ t.poisoned key 1 = true ∧
        (t.dieAt die.val).uncorrectable = d.uncorrectable + 1)) ∧
    (spaceOf key = .host → (∃ t, exec (.scrub key .uncorrectable) s = .next t ∧ t.hostFails key 1 = true ∧ t.mem = s.mem) ∧
      ∃ t, exec (.scrub key .clean) s = .next t ∧ t.hostFails key 1 = false ∧ t.mem = s.mem) ∧
    (let others := (((List.range 4).filter (· != die.val)).map fun k => (s.dieAt k).power).sum
     (others + n ≤ 2000 → ∃ t, exec (.powerGrant die n) s = .next t ∧ t.dieAt die.val = { d with power := n } ∧ t.mem = s.mem ∧
        t.cores = s.cores) ∧
     (2000 < others + n → exec (.powerGrant die n) s = .next s))

/-- R7, R310, R324, R325, R388, R391 to R399: writes of firmware to registers and tables, the resets, images and
attestation. An image is verified by its digest and its signature under the fused keys, and service firmware starts on the dies with
a region of SUPV. The model's choices and readings: what stays and goes at a warm reset, and how a queue's state area is found again
(log 33), the encoding of keys, images and reports (log 14), the tasks of a core or a cluster that is reset (log 34), what memory that
nothing has written reads as (log 1), the members of a group given with its entry (log 13), and the fields of service firmware's
regions (log 76). -/
def Obligations.ResetEvents : Prop :=
  ∀ (s : State) (q n : Nat) (im : FwImage) (nonce : BitVec 384) (b : BringUp) (die : Fin 4),
    let x := s.queueAt q
    let writes : RegWrite → (Hub → Hub) → Prop := fun w f => exec (.registerWrite w) s = .next { s with hub := f s.hub }
    (∀ e, e.valid = true → ∃ t, exec (.registerWrite (.queue q e)) s = .next t ∧ t.mem = s.mem ∧
      (x.reg.valid = true → t.queueAt q = { x with reg := e, area := (e.ring, e.cpl) }) ∧
      (x.reg.valid = false → x.area ≠ (e.ring, e.cpl) → t.queueAt q = { Queue.init with reg := e, area := (e.ring, e.cpl) }) ∧
      (x.reg.valid = false → x.area = (e.ring, e.cpl) →
        t.queueAt q = { Queue.warm s.time x with reg := e, tail := x.head, error := false })) ∧
    (∀ rcb root first num cap owner prio dramq pwr fdom, s.poison = [] → ∃ t,
      exec (.registerWrite (.queueRegion q rcb root first num cap owner prio dramq pwr fdom)) s = .next t ∧ rcb ∈ t.hub.regions ∧
        t.ptRoot rcb = root ∧ t.rcbParent rcb = 0 ∧ t.firstCore rcb = first % 2 ^ 11 ∧ t.numCores rcb = num % 2 ^ 12 ∧
        t.slotCap rcb = cap % 2 ^ 5) ∧
    (∀ a v, exec (.registerWrite (.page a v)) s = .next (s.store a.toNat 8 v.toNat)) ∧
    (∀ p st part, s.hub.silent = [] → writes (.peer p st part) fun h => { h with peers := tabPut h.peers p (st, part) }) ∧
    (∀ e, writes (.window n e) fun h => { h with windows := tabPut h.windows n e }) ∧
    (∀ e l, writes (.group n e l) fun h => { h with groups := tabPut h.groups n e, members := tabPut h.members n l }) ∧
    (∀ ms, writes (.hold ms) fun h => { h with hold := ms.toNat }) ∧
    (∀ dx dy dz, writes (.torus dx dy dz) fun h => { h with dx := dx.toNat, dy := dy.toNat, dz := dz.toNat }) ∧
    (∀ p part, writes (.peerNumber p part) fun h => { h with peer := p, partition := part }) ∧
    (∀ e, writes (.namespace_ n e) fun h => { h with namespaces := tabPut h.namespaces n e }) ∧
    (∀ cap, writes (.expander n cap) fun h => { h with expanders := tabPut h.expanders n (min cap (2 ^ 42), true) }) ∧
    (s.hub.ready = true → s.hub.warm = false → (x.reg.valid = true → ∃ t, exec (.registerWrite (.notifyError q)) s = .next t ∧
        t.queueAt q = { x with error := false } ∧ t.mem = s.mem) ∧
      (x.reg.valid = false → exec (.registerWrite (.notifyError q)) s = .next s)) ∧
    (s.hub.ready = false ∨ s.hub.warm = true → writes (.notifyError q) fun h => { h with held := h.held ++ [.error q] }) ∧
    (∀ rcb, s.poison = [] → ∃ t, exec (.registerWrite (.supv rcb)) s = .next t ∧ t.supv rcb = true) ∧
    (∀ base, ∃ t, exec (.registerWrite (.sampleRing n base)) s = .next t ∧ (t.dieAt n).ring.base = base ∧ t.mem = s.mem) ∧
    (s.hub.bootfail = true ∨ s.hub.warm = true → exec (.registerWrite .ready) s = .next s) ∧
    (s.hub.bootfail = false → s.hub.warm = false → ∃ t, exec (.registerWrite .ready) s = .next t ∧ t.hub.ready = true ∧
      t.hub.held = [] ∧ t.mem = s.mem) ∧
    (let part := fun off n => (im.bytes.drop off).take n
     let body := part 256 (ofBytes (part 8 8))
     (∀ (f : Fuses) (k : BitVec 16), FwImage.verified im f k = true ↔ ofBytes (part 0 4) = 0x4B4C4649 ∧ FwImage.kind im = k ∧
        (if k = 1 then f.rootSvn else f.serviceSvn) ≤ FwImage.svn im ∧ body.length = ofBytes (part 8 8) ∧
        part 16 48 = sha384 body ∧ (k = 1 → sha384 im.key = f.rootHash) ∧
        let key := if k = 1 then im.key else f.serviceKey
        ecdsaOk (ofBE (key.take 48), ofBE (key.drop 48)) (part 0 128 ++ body) (ofBE (part 0x80 48)) (ofBE (part 0xB0 48)) = true) ∧
     FwImage.kind im = BitVec.ofNat 16 (ofBytes (part 4 2)) ∧ FwImage.svn im = BitVec.ofNat 16 (ofBytes (part 6 2)) ∧
     FwImage.digest im = BitVec.ofNat 384 (ofBytes (part 16 48))) ∧
    (s.hub.rootRuns = true → FwImage.verified im s.hub.fuses 1 = true → exec (.imageUpload im) s =
      .next { s with hub := { s.hub with rootRuns := true, rootDigest := FwImage.digest im, rootSvn := FwImage.svn im } }) ∧
    (s.hub.rootRuns = true → FwImage.verified im s.hub.fuses 2 = true → exec (.imageUpload im) s =
      .next { s with hub := { s.hub with serviceDigest := FwImage.digest im, serviceSvn := FwImage.svn im } }) ∧
    (s.hub.rootRuns = false ∨ (FwImage.verified im s.hub.fuses 1 = false ∧ FwImage.verified im s.hub.fuses 2 = false) →
      exec (.imageUpload im) s = .next s) ∧
    (s.hub.rootRuns = false → exec (.attestationRequest nonce) s = .next s) ∧
    (s.hub.rootRuns = true → s.hub.warm = true →
      exec (.attestationRequest nonce) s = .next { s with hub := { s.hub with held := s.hub.held ++ [.attest nonce] } }) ∧
    (s.hub.rootRuns = true → s.hub.warm = false → ∃ t sig, exec (.attestationRequest nonce) s = .next t ∧ t.hub.notices = s.hub.notices ++
      [.report (reportBytes s.hub nonce s.time sig)] ∧ sig.length = 96 ∧ t.mem = s.mem) ∧
    (∀ sig : List Byte, let r := fun off len => ofBytes (((reportBytes s.hub nonce s.time sig).drop off).take len)
      r 0x00 48 = nonce.toNat ∧ r 0x30 48 = s.hub.rootDigest.toNat ∧ r 0x60 48 = s.hub.serviceDigest.toNat ∧
        r 0x90 2 = s.hub.rootSvn.toNat ∧ r 0x92 2 = s.hub.serviceSvn.toNat ∧ r 0x94 2 = s.hub.peer.toNat ∧
        r 0x96 2 = s.hub.partition.toNat ∧ r 0x98 8 = s.time.toNat ∧ (reportBytes s.hub nonce s.time sig).drop 0xA0 = sig) ∧
    (FwImage.verified b.root s.hub.fuses 1 = false → ∃ t, exec (.coldReset b) s = .next t ∧ t.hub.bootfail = true ∧ t.hub.ready = false ∧
      t.cores = [] ∧ ∀ k, t.byte k = if spaceOf k = .host then s.byte k else 0) ∧
    (FwImage.verified b.root s.hub.fuses 1 = true →
      let rooted := (b.tables.filter RegWrite.byRoot).foldl State.writeReg ((s.coldCleared.startImage b.root).trainLinks b.links)
      let started := ((b.starts.take 4).zipIdx).foldl (fun t e => t.startService e.2 e.1) (rooted.startImage b.service)
      let marked := b.failed.foldl (fun t c => t.modCluster c fun y => { y with nomx := true }) started
      (FwImage.verified b.service s.hub.fuses 2 = true → exec (.coldReset b) s =
        .next (((b.queues.filter fun w => !RegWrite.byRoot w).foldl State.writeReg marked).writeReg .ready)) ∧
      (FwImage.verified b.service s.hub.fuses 2 = false → exec (.coldReset b) s = .next rooted.failBoot)) ∧
    (∀ f : FwStart, s.poison = [] → n < 4 → let t := s.startService n f
      f.rcb ∈ t.hub.regions ∧ t.supv f.rcb = true ∧ t.firstCore f.rcb = n * 512 ∧ t.numCores f.rcb = 1 ∧ t.ptRoot f.rcb = f.ptroot ∧
        t.codeBase f.rcb = f.codeBase ∧ t.codeEnd f.rcb = f.codeEnd ∧
        ∃ k : Kid, (k ∈ (t.coreAt (n * 512)).runq ∨ k ∈ (t.coreAt (n * 512)).launches) ∧ k.ctx.rcb = f.rcb ∧ k.ctx.pc = f.entry ∧
          k.ctx.mode = true) ∧
    (FwImage.verified b.root s.hub.fuses 1 = false → ∃ t, exec (.overheat die b) s = .next t ∧ t.cores = [] ∧ t.net.map (·.typ) = [0x12] ∧
      .thermal die.val ∈ t.hub.notices) ∧
    (∃ t, exec .warmReset s = .next t ∧ t.hub.ready = false ∧ t.hub.warm = true ∧ t.cores = [] ∧ t.hub.waiters = [] ∧
      (∀ c, t.clusterAt c = { Cluster.init with nomx := (s.clusterAt c).nomx }) ∧
      (∀ k, s.hub.losses = [] → s.inQueueRegion k = false → t.byte k = if s.keepsByte k then s.byte k else 0) ∧
      (∀ k, spaceOf k = .host → s.keepsByte k = true) ∧
      (∀ y, tabGet s.hub.queues q = some y → (t.queueAt q).reg = y.reg ∧ (t.queueAt q).tail = y.tail ∧ (t.queueAt q).head = y.head ∧
        (t.queueAt q).done = y.done ∧ (t.queueAt q).obls = y.obls ∧ (t.queueAt q).bound = false ∧
        ∀ e ∈ (t.queueAt q).entries, e.result = some (0x0B, 0, s.time))) ∧
    (s.hub.warm = false → exec .warmResetComplete s = .next s) ∧
    (s.hub.warm = true → ∃ t, exec .warmResetComplete s = .next t ∧ t.hub.warm = false ∧ t.hub.held = [] ∧ t.mem = s.mem) ∧
    (∃ t, exec (.coreReset n) s = .next t ∧ (t.coreAt n).slots = Core.init.slots ∧ (t.coreAt n).mxq = [] ∧ (t.coreAt n).engs = [] ∧
      (t.coreAt n).contained = (s.coreAt n).contained ∧ (∀ e ∈ (t.coreAt n).alloc, e ∈ (s.coreAt n).alloc) ∧
      ∀ k, k < 786432 → t.byte (localBase n + k) = 0) ∧
    (∀ passed, ∃ t o, exec (.clusterReset n passed) s = .next ((List.range 8).foldl (fun u k => u.resetCore (n * 8 + k) false) t) ∧
      t.clusterAt n = { Cluster.init with padOwner := o, nomx := !passed })

/-! ### The whole machine -/

/-- R7, R12, R13, R24, R28, R29, R41, R45, R50: what an instruction leaves as it was. An A-slot instruction, and a C-slot
one of those named, changes no byte of memory when it issues, no table of the device and no other slot; of its own task
it changes no register but the destinations that its encoding names, and it only adds status bits. When an access is
performed, a load changes no byte, and a store or an atomic none but those at its addresses. -/
def Obligations.InstructionFrames : Prop :=
  ∀ (s t : State) (i : Instr) (d a b : GIx) (vd vb : VIx) (sz : Size) (az : ASize) (e : ESize) (x : Bool) (sc : Scope) (o : AOrder)
    (off code : BitVec 8) (lit : BitVec 32) (far : BitVec 19) (r : CReg) (n : Nat) (j : Fin 16) (acc : Access) (err : Bool),
    ((encodeA i).isSome = true ∨ i ∈ [Instr.cnop, .br far, .brWide lit, .jmp a, .trapi code, .syscall code, .movl d lit, .movh d lit,
        .ld sz x d a off, .ldWide sz x d a lit, .lds sz x d a off, .ldsWide sz x d a lit, .st sz x d a off, .stWide sz x d a lit,
        .ldv x vd a off, .ldvWide x vd a lit, .stv x vd a off, .stvWide x vd a lit, .ldvs e x vd a b, .stvs e x vd a b,
        .vgath e x vd a vb, .vscat e x vd a vb, .aadd az sc o d a b, .aand az sc o d a b, .aor az sc o d a b, .axor az sc o d a b,
        .amin az sc o d a b, .amax az sc o d a b, .aswp az sc o d a b, .acas az sc o d a b, .afadd sc o d a b, .crd d r, .rdtime d,
        .rdcyc d, .pcnt d a] → exec i s = .next t →
      t.mem = s.mem ∧ t.poison = s.poison ∧ (∀ k, t.byte k = s.byte k) ∧ t.hub = s.hub ∧ t.clusters = s.clusters ∧ t.clk = s.clk ∧
      t.act = s.act ∧ t.agenda = s.agenda ∧ ((encodeA i).isSome = true → t.net = s.net ∧ t.dies = s.dies) ∧
      (∀ m k, m ≠ s.core ∨ k ≠ s.slot → t.slotAt m k = s.slotAt m k) ∧
      let c := s.ctxAt s.core s.slot
      let u := t.ctxAt s.core s.slot
      (∀ g : GIx, Dest.g g ∉ i.dests → u.g[g] = c.g[g]) ∧ (∀ v : VIx, Dest.v v ∉ i.dests → u.v[v] = c.v[v]) ∧
      (∀ p : PIx, Dest.p p ∉ i.dests → u.pred p = c.pred p) ∧ (Dest.lm ∉ i.dests → u.lm = c.lm) ∧
      u.sstat &&& c.sstat = c.sstat ∧ u.rnd = c.rnd ∧ u.cmask = c.cmask ∧ u.wch = c.wch ∧ u.ecxsel = c.ecxsel ∧ u.elsel = c.elsel ∧
      u.mode = c.mode ∧ u.rcb = c.rcb ∧ u.tid = c.tid ∧ u.rgn = c.rgn ∧ u.obls = c.obls ∧ u.bp = c.bp ∧ u.late = c.late) ∧
    ((s.ctxAt n j).accs.find? (fun x => x.id == acc.id) = some acc → (s.slotAt n j).st ≠ .settle → (s.ctxAt n j).trail = false →
      exec (.accessComplete n j.val acc.id err) s = .next t →
      (∀ len sx h p, acc.op = .loadG d len sx h p → t.mem = s.mem) ∧ (∀ len els ps, acc.op = .loadV vd len els ps → t.mem = s.mem) ∧
      (∀ len els wch ps, acc.op = .store len els wch ps → ∀ k, (∀ key v, (Home.mem key, v) ∈ els → k < key ∨ key + len ≤ k) →
        t.byte k = s.byte k) ∧
      (∀ op key p, acc.op = .atomic d op (.mem key) p → ∀ k, k < key ∨ key + op.w ≤ k → t.byte k = s.byte k))

/-- R11, R17, R29, R137, R334, R354, R391, R399 and log 7: the machine right after cold reset. No task, no packet and no
byte of memory is there, every slot is empty, and the registers, tables and counters hold what the spec or log 7 gives. That
every byte reads 0 is the model's choice (log 1). -/
def Obligations.ResetState : Prop :=
  let s := State.reset
  s.Sound ∧ s.net = [] ∧ s.clk = 0 ∧ s.poison = [] ∧ (∀ k, s.byte k = 0) ∧
  (∀ n (i : Fin 16), (s.slotAt n i).st = .empty ∧ (s.ctxAt n i).obls = [] ∧ (s.ctxAt n i).accs = [] ∧ (s.ctxAt n i).pw = 1 ∧
    (s.ctxAt n i).rnd = 0 ∧ (s.ctxAt n i).sstat = 0) ∧
  (∀ n, (s.coreAt n).mailbox = [] ∧ (s.coreAt n).contained = false ∧ (s.coreAt n).engs = [] ∧ (s.coreAt n).mxq = [] ∧
    (∀ t : TIx, (s.coreAt n).shapes[t].cfg = false ∧ (s.coreAt n).shapes[t].inuse = false) ∧
    ∀ e : Fin 4, (s.coreAt n).ecx[e].issued = 0 ∧ (s.coreAt n).ecx[e].line = 0) ∧
  (∀ n (h : Fin 16), (s.clusterAt n).herds[h] = none ∧ (s.clusterAt n).tlb = []) ∧
  (∀ n, (s.dieAt n).wsfrz = false ∧ (s.dieAt n).chans = [] ∧ (s.dieAt n).counters = []) ∧
  (∀ q, (s.queueAt q).reg.valid = false) ∧ s.hub.ready = false ∧ s.hub.bootfail = false ∧ s.hub.warm = false ∧ s.hub.regions = [] ∧ s.hub.rootRuns = false ∧ s.hub.linked = false ∧
  ∀ p, s.peerCheck p = some 0x08

/-- R41, R44 to R48, R67, R95: words written out from the spec's encodings decode to the instructions they stand for. -/
def Obligations.DecodeWords : Prop :=
  decodeA 0x04000000 ≠ none ∧ decodeA (0x04000000 + 1 * 2 ^ 17 + 2 * 2 ^ 13 + 3 * 2 ^ 9) = some (.add 1 2 3) ∧
  decodeA (0x60000000 + 1 * 2 ^ 18 + 2 * 2 ^ 15 + 3 * 2 ^ 12) = some (.vadd .w false 1 2 3) ∧
  decodeA (0xAC000000 + 5 * 2 ^ 18 + 6 * 2 ^ 14 + 7 * 2 ^ 10) = some (.mma 5 6 7) ∧
  decodeC (0x00400000 + 4 * 2 ^ 15 + 5 * 2 ^ 11 + 3 * 2 ^ 8 + 0x10) 0 = some (.ld .d false 4 5 0x10) ∧
  decodeC (0x80280000 + 9 * 2 ^ 15) 0x12345678 = some (.movl 9 0x12345678) ∧
  decodeC 0x0008FFFF 0 = some (.br 0xFFFF) ∧
  decodeC (0x01100000 + 3 * 2 ^ 11 + 4 * 2 ^ 7) 0 = some (.signal 3 4) ∧
  decodeC (0x01E80000 + 1 * 2 ^ 11 + 2 * 2 ^ 7) 0 = some (.swrun 1 2) ∧
  decodeX (0x04000000 + 1 * 2 ^ 24 + 2 * 2 ^ 20) = some (.cmov 1 (.reg 2)) ∧
  decodeC 0x01FFFFFF 0 = none ∧ decodeA 0xFC000000 = none

/-- R46, R67 to R74, R238: decoding the words of a well-formed instruction gives it back, and what the decoder reads is
well formed and has these words, the predicate field apart. -/
def Obligations.DecodeEncodeRoundTrip : Prop :=
  ∀ (i : Instr),
    (i.wellFormed = true →
      (∀ p, encodeC i = some p → p.1 < 2 ^ 32 ∧ p.2 < 2 ^ 32 ∧ decodeC p.1 p.2 = some i) ∧
      (∀ w, encodeA i = some w → w < 2 ^ 32 ∧ decodeA w = some i) ∧ (∀ w, encodeX i = some w → w < 2 ^ 32 ∧ decodeX w = some i)) ∧
    (∀ w lit, w < 2 ^ 32 → lit < 2 ^ 32 → decodeC w lit = some i → i.wellFormed = true ∧ (encodeC i).isSome = true) ∧
    (∀ w, w < 2 ^ 32 → decodeA w = some i → i.wellFormed = true ∧ encodeA i = some (w / 2 ^ 26 * 2 ^ 26 + w % 2 ^ 21)) ∧
    (∀ w, w < 2 ^ 32 → decodeX w = some i → i.wellFormed = true ∧ encodeX i = some w)

/-- R41, R44 to R47, R119, R342 and log 2: a step. It always answers a next state. An event that is due is executed;
an answer that is due decides on its pair (R153, R187; log 5); else the core that has the focus issues: the slot it chooses reads the pair at its PC, and an instruction alone in its
pair, in the C slot or in the A slot beside CNOP, is executed as `exec` gives. What the step changes in a registry, a breakpoint
word or a session (log 9) is written through to the task's context area (R186), and nothing else is added. R47, R50, R277: a pair parks
where either slot must wait, and neither slot has any effect; else it asks the home that decides on it; else it faults where
either slot faults, with the cause that stands higher in the list where both do; else both slots read, and then both act. -/
def Obligations.StepRunsInstruction : Prop :=
  (∀ (s : State),
    (∃ t, step s = .next t) ∧
    (∀ i l, s.agenda = .event i :: l → ∃ t, exec i { s.tick with agenda := l } = .next t ∧
      step s = .next (t.writeThrough { s.tick with agenda := l })) ∧
    (∀ n i l, s.agenda = .decide n i :: l → step s =
      .next (({ s.tick with agenda := l }.verdict n i).writeThrough { s.tick with agenda := l })) ∧
    (∀ t, (∀ c ∈ s.keptTasks, c.obls = (t.taskBefore c.tid).obls ∧ c.bp = (t.taskBefore c.tid).bp ∧
      c.tid = (t.taskBefore c.tid).tid ∧ c.bpSession = (t.taskBefore c.tid).bpSession) → s.writeThrough t = s) ∧
    (s.clk < s.tick.clk ∧ s.tick.mem = s.mem ∧ s.tick.hub = s.hub ∧
      s.tick.net = s.net.filter (fun p => decide (s.age p + (s.tick.clk / 1600 - s.clk / 1600) < 498)) ∧ ∀ n j, s.tick.slotAt n j =
      if (s.slotAt n j).st = .issued then { s.slotAt n j with st := .ready, since := s.tick.clk } else s.slotAt n j) ∧
    (∀ (n : Nat) (j : Fin 16) (w : Word) (i : Instr) (v : State) (inA : Bool) (key : Nat),
      let p : Pair := if inA then ⟨false, ⟨0, false, .cnop⟩, ⟨0, false, i⟩⟩ else ⟨false, ⟨0, false, i⟩, ⟨0, false, .anop⟩⟩
      let u0 : State := { s.tick with core := n, slot := j, pair := 0, popped := [] }
      let u : State := { u0.cacheFetch (w, .ok p) with pair := w }
      s.agenda = [] → s.focus = n → s.tick.choose n [] = some j → (u.slotAt n j).st = .ready → u.ctx.late = [] →
      (u.slotAt n j).stops = false → u.rdt = false →
      u.codeBase u.ctx.rcb ≤ u.ctx.pc → u.ctx.pc < u.codeEnd u.ctx.rcb → u.resolve u.who u.ctx.pc .fetch = .ok (.mem key) →
      u.dataFault key 8 false = none → u.load key 8 = w.toNat → (∀ e, u0.inCache = some e → e.word = w) →
      decodePair (w.toNat % 2 ^ 32) (w.toNat / 2 ^ 32) = some p → exec i u = .next v →
      ((v.slotAt n j).st = .faulted ∨ (v.slotAt n j).st = .empty ∨ (v.ctxAt n j).pairs ≠ (u.ctxAt n j).pairs) →
        step s = .next (v.writeThrough s.tick)) ∧
    (∀ n, s.agenda = [] → s.focus = n → s.tick.choose n [] = none → step s = .next (s.tick.writeThrough s.tick))) ∧
  (∀ (s : State) (st : SlotSt) (t u : Trap) (p : Plan) (cr cn ar an : State → State) (ca aa : Bool → State → State) (b : Bool)
      (h : Query),
    issuePair b (.park st) p s = s.enter st ∧
    (∀ q ∈ [Plan.ask h, .trap t, .commit cr cn ca], issuePair b q (.park st) s = s.enter st) ∧
    (∀ q ∈ [Plan.trap t, .commit cr cn ca], issuePair b (.ask h) q s = s.asks h ∧ issuePair b q (.ask h) s = s.asks h) ∧
    (issuePair b (.trap t) (.commit ar an aa) s = s.trapNow t) ∧
    (issuePair b (.commit cr cn ca) (.trap u) s = s.trapNow u) ∧
    (issuePair b (.trap t) (.trap u) s = s.trapNow (if causeRank u.cause < causeRank t.cause then u else t)) ∧
    (issuePair b (.commit cr cn ca) (.commit ar an aa) s =
      (aa b (ca b (an (cn (ar (cr s.commitStart)))).advance)).settleIf b) ∧
    causeOrder.map BitVec.toNat = [0x01, 0x02, 0x1A, 0x04, 0x05, 0x06, 0x07, 0x08, 0x09, 0x0B, 0x0A, 0x18, 0x1B, 0x30, 0x31,
      0x20, 0x10, 0x12, 0x11, 0x13, 0x14, 0x38])

/-- The headline invariant (log 1): every step keeps memory in its canonical form, so that equal memories are equal
data. -/
def Obligations.MemoryCanonical : Prop :=
  ∀ (s t : State), s.Sound → step s = .next t → t.Sound
end

