-- ==== Sys2Proof/Laws/State.lean ====
section
/-! SUPPORT. The updates of the state: one lemma for each field that an update leaves alone, and what is found at a place
after a place was changed. -/

namespace Sys2Proof.Machine

/-! ### Fields that an update leaves alone -/

@[simp] theorem State.modCore_mem (s : State) (n : Nat) (f : Core → Core) : (s.modCore n f).mem = s.mem := rfl
@[simp] theorem State.modCore_poison (s : State) (n : Nat) (f : Core → Core) : (s.modCore n f).poison = s.poison := rfl
@[simp] theorem State.modCore_clusters (s : State) (n : Nat) (f : Core → Core) : (s.modCore n f).clusters = s.clusters := rfl
@[simp] theorem State.modCore_dies (s : State) (n : Nat) (f : Core → Core) : (s.modCore n f).dies = s.dies := rfl
@[simp] theorem State.modCore_hub (s : State) (n : Nat) (f : Core → Core) : (s.modCore n f).hub = s.hub := rfl
@[simp] theorem State.modCore_net (s : State) (n : Nat) (f : Core → Core) : (s.modCore n f).net = s.net := rfl
@[simp] theorem State.modCore_clk (s : State) (n : Nat) (f : Core → Core) : (s.modCore n f).clk = s.clk := rfl
@[simp] theorem State.modCore_core (s : State) (n : Nat) (f : Core → Core) : (s.modCore n f).core = s.core := rfl
@[simp] theorem State.modCore_slot (s : State) (n : Nat) (f : Core → Core) : (s.modCore n f).slot = s.slot := rfl
@[simp] theorem State.modCore_pair (s : State) (n : Nat) (f : Core → Core) : (s.modCore n f).pair = s.pair := rfl
@[simp] theorem State.modCore_popped (s : State) (n : Nat) (f : Core → Core) : (s.modCore n f).popped = s.popped := rfl
@[simp] theorem State.modCore_act (s : State) (n : Nat) (f : Core → Core) : (s.modCore n f).act = s.act := rfl
@[simp] theorem State.modCore_agenda (s : State) (n : Nat) (f : Core → Core) : (s.modCore n f).agenda = s.agenda := rfl
@[simp] theorem State.modCore_focus (s : State) (n : Nat) (f : Core → Core) : (s.modCore n f).focus = s.focus := rfl
@[simp] theorem State.modCore_seq (s : State) (n : Nat) (f : Core → Core) : (s.modCore n f).seq = s.seq := rfl
@[simp] theorem State.modCore_free (s : State) (n : Nat) (f : Core → Core) : (s.modCore n f).free = s.free := rfl
@[simp] theorem State.modCore_ticks (s : State) (n : Nat) (f : Core → Core) : (s.modCore n f).ticks = s.ticks := rfl

@[simp] theorem State.modCluster_mem (s : State) (n : Nat) (f : Cluster → Cluster) : (s.modCluster n f).mem = s.mem := rfl
@[simp] theorem State.modCluster_poison (s : State) (n : Nat) (f : Cluster → Cluster) : (s.modCluster n f).poison = s.poison := rfl
@[simp] theorem State.modCluster_cores (s : State) (n : Nat) (f : Cluster → Cluster) : (s.modCluster n f).cores = s.cores := rfl
@[simp] theorem State.modCluster_dies (s : State) (n : Nat) (f : Cluster → Cluster) : (s.modCluster n f).dies = s.dies := rfl
@[simp] theorem State.modCluster_hub (s : State) (n : Nat) (f : Cluster → Cluster) : (s.modCluster n f).hub = s.hub := rfl
@[simp] theorem State.modCluster_net (s : State) (n : Nat) (f : Cluster → Cluster) : (s.modCluster n f).net = s.net := rfl
@[simp] theorem State.modCluster_clk (s : State) (n : Nat) (f : Cluster → Cluster) : (s.modCluster n f).clk = s.clk := rfl
@[simp] theorem State.modCluster_core (s : State) (n : Nat) (f : Cluster → Cluster) : (s.modCluster n f).core = s.core := rfl
@[simp] theorem State.modCluster_slot (s : State) (n : Nat) (f : Cluster → Cluster) : (s.modCluster n f).slot = s.slot := rfl
@[simp] theorem State.modCluster_pair (s : State) (n : Nat) (f : Cluster → Cluster) : (s.modCluster n f).pair = s.pair := rfl
@[simp] theorem State.modCluster_popped (s : State) (n : Nat) (f : Cluster → Cluster) : (s.modCluster n f).popped = s.popped := rfl
@[simp] theorem State.modCluster_act (s : State) (n : Nat) (f : Cluster → Cluster) : (s.modCluster n f).act = s.act := rfl
@[simp] theorem State.modCluster_agenda (s : State) (n : Nat) (f : Cluster → Cluster) : (s.modCluster n f).agenda = s.agenda := rfl
@[simp] theorem State.modCluster_focus (s : State) (n : Nat) (f : Cluster → Cluster) : (s.modCluster n f).focus = s.focus := rfl
@[simp] theorem State.modCluster_seq (s : State) (n : Nat) (f : Cluster → Cluster) : (s.modCluster n f).seq = s.seq := rfl
@[simp] theorem State.modCluster_free (s : State) (n : Nat) (f : Cluster → Cluster) : (s.modCluster n f).free = s.free := rfl
@[simp] theorem State.modCluster_ticks (s : State) (n : Nat) (f : Cluster → Cluster) : (s.modCluster n f).ticks = s.ticks := rfl

@[simp] theorem State.modDie_mem (s : State) (n : Nat) (f : Die → Die) : (s.modDie n f).mem = s.mem := rfl
@[simp] theorem State.modDie_poison (s : State) (n : Nat) (f : Die → Die) : (s.modDie n f).poison = s.poison := rfl
@[simp] theorem State.modDie_cores (s : State) (n : Nat) (f : Die → Die) : (s.modDie n f).cores = s.cores := rfl
@[simp] theorem State.modDie_clusters (s : State) (n : Nat) (f : Die → Die) : (s.modDie n f).clusters = s.clusters := rfl
@[simp] theorem State.modDie_hub (s : State) (n : Nat) (f : Die → Die) : (s.modDie n f).hub = s.hub := rfl
@[simp] theorem State.modDie_net (s : State) (n : Nat) (f : Die → Die) : (s.modDie n f).net = s.net := rfl
@[simp] theorem State.modDie_clk (s : State) (n : Nat) (f : Die → Die) : (s.modDie n f).clk = s.clk := rfl
@[simp] theorem State.modDie_core (s : State) (n : Nat) (f : Die → Die) : (s.modDie n f).core = s.core := rfl
@[simp] theorem State.modDie_slot (s : State) (n : Nat) (f : Die → Die) : (s.modDie n f).slot = s.slot := rfl
@[simp] theorem State.modDie_pair (s : State) (n : Nat) (f : Die → Die) : (s.modDie n f).pair = s.pair := rfl
@[simp] theorem State.modDie_popped (s : State) (n : Nat) (f : Die → Die) : (s.modDie n f).popped = s.popped := rfl
@[simp] theorem State.modDie_act (s : State) (n : Nat) (f : Die → Die) : (s.modDie n f).act = s.act := rfl
@[simp] theorem State.modDie_agenda (s : State) (n : Nat) (f : Die → Die) : (s.modDie n f).agenda = s.agenda := rfl
@[simp] theorem State.modDie_focus (s : State) (n : Nat) (f : Die → Die) : (s.modDie n f).focus = s.focus := rfl
@[simp] theorem State.modDie_seq (s : State) (n : Nat) (f : Die → Die) : (s.modDie n f).seq = s.seq := rfl
@[simp] theorem State.modDie_free (s : State) (n : Nat) (f : Die → Die) : (s.modDie n f).free = s.free := rfl
@[simp] theorem State.modDie_ticks (s : State) (n : Nat) (f : Die → Die) : (s.modDie n f).ticks = s.ticks := rfl

@[simp] theorem State.modHub_mem (s : State) (f : Hub → Hub) : (s.modHub f).mem = s.mem := rfl
@[simp] theorem State.modHub_poison (s : State) (f : Hub → Hub) : (s.modHub f).poison = s.poison := rfl
@[simp] theorem State.modHub_cores (s : State) (f : Hub → Hub) : (s.modHub f).cores = s.cores := rfl
@[simp] theorem State.modHub_clusters (s : State) (f : Hub → Hub) : (s.modHub f).clusters = s.clusters := rfl
@[simp] theorem State.modHub_dies (s : State) (f : Hub → Hub) : (s.modHub f).dies = s.dies := rfl
@[simp] theorem State.modHub_net (s : State) (f : Hub → Hub) : (s.modHub f).net = s.net := rfl
@[simp] theorem State.modHub_clk (s : State) (f : Hub → Hub) : (s.modHub f).clk = s.clk := rfl
@[simp] theorem State.modHub_core (s : State) (f : Hub → Hub) : (s.modHub f).core = s.core := rfl
@[simp] theorem State.modHub_slot (s : State) (f : Hub → Hub) : (s.modHub f).slot = s.slot := rfl
@[simp] theorem State.modHub_pair (s : State) (f : Hub → Hub) : (s.modHub f).pair = s.pair := rfl
@[simp] theorem State.modHub_popped (s : State) (f : Hub → Hub) : (s.modHub f).popped = s.popped := rfl
@[simp] theorem State.modHub_act (s : State) (f : Hub → Hub) : (s.modHub f).act = s.act := rfl
@[simp] theorem State.modHub_agenda (s : State) (f : Hub → Hub) : (s.modHub f).agenda = s.agenda := rfl
@[simp] theorem State.modHub_focus (s : State) (f : Hub → Hub) : (s.modHub f).focus = s.focus := rfl
@[simp] theorem State.modHub_seq (s : State) (f : Hub → Hub) : (s.modHub f).seq = s.seq := rfl
@[simp] theorem State.modHub_free (s : State) (f : Hub → Hub) : (s.modHub f).free = s.free := rfl
@[simp] theorem State.modHub_ticks (s : State) (f : Hub → Hub) : (s.modHub f).ticks = s.ticks := rfl

@[simp] theorem State.modQueue_mem (s : State) (q : Nat) (f : Queue → Queue) : (s.modQueue q f).mem = s.mem := rfl
@[simp] theorem State.modQueue_poison (s : State) (q : Nat) (f : Queue → Queue) : (s.modQueue q f).poison = s.poison := rfl
@[simp] theorem State.modQueue_cores (s : State) (q : Nat) (f : Queue → Queue) : (s.modQueue q f).cores = s.cores := rfl
@[simp] theorem State.modQueue_clusters (s : State) (q : Nat) (f : Queue → Queue) : (s.modQueue q f).clusters = s.clusters := rfl
@[simp] theorem State.modQueue_dies (s : State) (q : Nat) (f : Queue → Queue) : (s.modQueue q f).dies = s.dies := rfl
@[simp] theorem State.modQueue_net (s : State) (q : Nat) (f : Queue → Queue) : (s.modQueue q f).net = s.net := rfl
@[simp] theorem State.modQueue_clk (s : State) (q : Nat) (f : Queue → Queue) : (s.modQueue q f).clk = s.clk := rfl
@[simp] theorem State.modQueue_core (s : State) (q : Nat) (f : Queue → Queue) : (s.modQueue q f).core = s.core := rfl
@[simp] theorem State.modQueue_slot (s : State) (q : Nat) (f : Queue → Queue) : (s.modQueue q f).slot = s.slot := rfl
@[simp] theorem State.modQueue_pair (s : State) (q : Nat) (f : Queue → Queue) : (s.modQueue q f).pair = s.pair := rfl
@[simp] theorem State.modQueue_popped (s : State) (q : Nat) (f : Queue → Queue) : (s.modQueue q f).popped = s.popped := rfl
@[simp] theorem State.modQueue_act (s : State) (q : Nat) (f : Queue → Queue) : (s.modQueue q f).act = s.act := rfl
@[simp] theorem State.modQueue_agenda (s : State) (q : Nat) (f : Queue → Queue) : (s.modQueue q f).agenda = s.agenda := rfl
@[simp] theorem State.modQueue_focus (s : State) (q : Nat) (f : Queue → Queue) : (s.modQueue q f).focus = s.focus := rfl
@[simp] theorem State.modQueue_seq (s : State) (q : Nat) (f : Queue → Queue) : (s.modQueue q f).seq = s.seq := rfl
@[simp] theorem State.modQueue_free (s : State) (q : Nat) (f : Queue → Queue) : (s.modQueue q f).free = s.free := rfl
@[simp] theorem State.modQueue_ticks (s : State) (q : Nat) (f : Queue → Queue) : (s.modQueue q f).ticks = s.ticks := rfl

@[simp] theorem State.modSlot_mem (s : State) (n : Nat) (i : Fin 16) (f : Slot → Slot) : (s.modSlot n i f).mem = s.mem := rfl
@[simp] theorem State.modSlot_poison (s : State) (n : Nat) (i : Fin 16) (f : Slot → Slot) : (s.modSlot n i f).poison = s.poison := rfl
@[simp] theorem State.modSlot_clusters (s : State) (n : Nat) (i : Fin 16) (f : Slot → Slot) : (s.modSlot n i f).clusters = s.clusters := rfl
@[simp] theorem State.modSlot_dies (s : State) (n : Nat) (i : Fin 16) (f : Slot → Slot) : (s.modSlot n i f).dies = s.dies := rfl
@[simp] theorem State.modSlot_hub (s : State) (n : Nat) (i : Fin 16) (f : Slot → Slot) : (s.modSlot n i f).hub = s.hub := rfl
@[simp] theorem State.modSlot_net (s : State) (n : Nat) (i : Fin 16) (f : Slot → Slot) : (s.modSlot n i f).net = s.net := rfl
@[simp] theorem State.modSlot_clk (s : State) (n : Nat) (i : Fin 16) (f : Slot → Slot) : (s.modSlot n i f).clk = s.clk := rfl
@[simp] theorem State.modSlot_core (s : State) (n : Nat) (i : Fin 16) (f : Slot → Slot) : (s.modSlot n i f).core = s.core := rfl
@[simp] theorem State.modSlot_slot (s : State) (n : Nat) (i : Fin 16) (f : Slot → Slot) : (s.modSlot n i f).slot = s.slot := rfl
@[simp] theorem State.modSlot_pair (s : State) (n : Nat) (i : Fin 16) (f : Slot → Slot) : (s.modSlot n i f).pair = s.pair := rfl
@[simp] theorem State.modSlot_popped (s : State) (n : Nat) (i : Fin 16) (f : Slot → Slot) : (s.modSlot n i f).popped = s.popped := rfl
@[simp] theorem State.modSlot_act (s : State) (n : Nat) (i : Fin 16) (f : Slot → Slot) : (s.modSlot n i f).act = s.act := rfl
@[simp] theorem State.modSlot_agenda (s : State) (n : Nat) (i : Fin 16) (f : Slot → Slot) : (s.modSlot n i f).agenda = s.agenda := rfl
@[simp] theorem State.modSlot_focus (s : State) (n : Nat) (i : Fin 16) (f : Slot → Slot) : (s.modSlot n i f).focus = s.focus := rfl
@[simp] theorem State.modSlot_seq (s : State) (n : Nat) (i : Fin 16) (f : Slot → Slot) : (s.modSlot n i f).seq = s.seq := rfl
@[simp] theorem State.modSlot_free (s : State) (n : Nat) (i : Fin 16) (f : Slot → Slot) : (s.modSlot n i f).free = s.free := rfl
@[simp] theorem State.modSlot_ticks (s : State) (n : Nat) (i : Fin 16) (f : Slot → Slot) : (s.modSlot n i f).ticks = s.ticks := rfl

@[simp] theorem State.modCtxAt_mem (s : State) (n : Nat) (i : Fin 16) (f : Ctx → Ctx) : (s.modCtxAt n i f).mem = s.mem := rfl
@[simp] theorem State.modCtxAt_poison (s : State) (n : Nat) (i : Fin 16) (f : Ctx → Ctx) : (s.modCtxAt n i f).poison = s.poison := rfl
@[simp] theorem State.modCtxAt_clusters (s : State) (n : Nat) (i : Fin 16) (f : Ctx → Ctx) : (s.modCtxAt n i f).clusters = s.clusters := rfl
@[simp] theorem State.modCtxAt_dies (s : State) (n : Nat) (i : Fin 16) (f : Ctx → Ctx) : (s.modCtxAt n i f).dies = s.dies := rfl
@[simp] theorem State.modCtxAt_hub (s : State) (n : Nat) (i : Fin 16) (f : Ctx → Ctx) : (s.modCtxAt n i f).hub = s.hub := rfl
@[simp] theorem State.modCtxAt_net (s : State) (n : Nat) (i : Fin 16) (f : Ctx → Ctx) : (s.modCtxAt n i f).net = s.net := rfl
@[simp] theorem State.modCtxAt_clk (s : State) (n : Nat) (i : Fin 16) (f : Ctx → Ctx) : (s.modCtxAt n i f).clk = s.clk := rfl
@[simp] theorem State.modCtxAt_core (s : State) (n : Nat) (i : Fin 16) (f : Ctx → Ctx) : (s.modCtxAt n i f).core = s.core := rfl
@[simp] theorem State.modCtxAt_slot (s : State) (n : Nat) (i : Fin 16) (f : Ctx → Ctx) : (s.modCtxAt n i f).slot = s.slot := rfl
@[simp] theorem State.modCtxAt_pair (s : State) (n : Nat) (i : Fin 16) (f : Ctx → Ctx) : (s.modCtxAt n i f).pair = s.pair := rfl
@[simp] theorem State.modCtxAt_popped (s : State) (n : Nat) (i : Fin 16) (f : Ctx → Ctx) : (s.modCtxAt n i f).popped = s.popped := rfl
@[simp] theorem State.modCtxAt_act (s : State) (n : Nat) (i : Fin 16) (f : Ctx → Ctx) : (s.modCtxAt n i f).act = s.act := rfl
@[simp] theorem State.modCtxAt_agenda (s : State) (n : Nat) (i : Fin 16) (f : Ctx → Ctx) : (s.modCtxAt n i f).agenda = s.agenda := rfl
@[simp] theorem State.modCtxAt_focus (s : State) (n : Nat) (i : Fin 16) (f : Ctx → Ctx) : (s.modCtxAt n i f).focus = s.focus := rfl
@[simp] theorem State.modCtxAt_seq (s : State) (n : Nat) (i : Fin 16) (f : Ctx → Ctx) : (s.modCtxAt n i f).seq = s.seq := rfl
@[simp] theorem State.modCtxAt_free (s : State) (n : Nat) (i : Fin 16) (f : Ctx → Ctx) : (s.modCtxAt n i f).free = s.free := rfl
@[simp] theorem State.modCtxAt_ticks (s : State) (n : Nat) (i : Fin 16) (f : Ctx → Ctx) : (s.modCtxAt n i f).ticks = s.ticks := rfl

@[simp] theorem State.setSt_mem (s : State) (n : Nat) (i : Fin 16) (st : SlotSt) : (s.setSt n i st).mem = s.mem := rfl
@[simp] theorem State.setSt_poison (s : State) (n : Nat) (i : Fin 16) (st : SlotSt) : (s.setSt n i st).poison = s.poison := rfl
@[simp] theorem State.setSt_clusters (s : State) (n : Nat) (i : Fin 16) (st : SlotSt) : (s.setSt n i st).clusters = s.clusters := rfl
@[simp] theorem State.setSt_dies (s : State) (n : Nat) (i : Fin 16) (st : SlotSt) : (s.setSt n i st).dies = s.dies := rfl
@[simp] theorem State.setSt_hub (s : State) (n : Nat) (i : Fin 16) (st : SlotSt) : (s.setSt n i st).hub = s.hub := rfl
@[simp] theorem State.setSt_net (s : State) (n : Nat) (i : Fin 16) (st : SlotSt) : (s.setSt n i st).net = s.net := rfl
@[simp] theorem State.setSt_clk (s : State) (n : Nat) (i : Fin 16) (st : SlotSt) : (s.setSt n i st).clk = s.clk := rfl
@[simp] theorem State.setSt_core (s : State) (n : Nat) (i : Fin 16) (st : SlotSt) : (s.setSt n i st).core = s.core := rfl
@[simp] theorem State.setSt_slot (s : State) (n : Nat) (i : Fin 16) (st : SlotSt) : (s.setSt n i st).slot = s.slot := rfl
@[simp] theorem State.setSt_pair (s : State) (n : Nat) (i : Fin 16) (st : SlotSt) : (s.setSt n i st).pair = s.pair := rfl
@[simp] theorem State.setSt_popped (s : State) (n : Nat) (i : Fin 16) (st : SlotSt) : (s.setSt n i st).popped = s.popped := rfl
@[simp] theorem State.setSt_act (s : State) (n : Nat) (i : Fin 16) (st : SlotSt) : (s.setSt n i st).act = s.act := rfl
@[simp] theorem State.setSt_agenda (s : State) (n : Nat) (i : Fin 16) (st : SlotSt) : (s.setSt n i st).agenda = s.agenda := rfl
@[simp] theorem State.setSt_focus (s : State) (n : Nat) (i : Fin 16) (st : SlotSt) : (s.setSt n i st).focus = s.focus := rfl
@[simp] theorem State.setSt_seq (s : State) (n : Nat) (i : Fin 16) (st : SlotSt) : (s.setSt n i st).seq = s.seq := rfl
@[simp] theorem State.setSt_free (s : State) (n : Nat) (i : Fin 16) (st : SlotSt) : (s.setSt n i st).free = s.free := rfl
@[simp] theorem State.setSt_ticks (s : State) (n : Nat) (i : Fin 16) (st : SlotSt) : (s.setSt n i st).ticks = s.ticks := rfl

@[simp] theorem State.modCtx_mem (s : State) (f : Ctx → Ctx) : (s.modCtx f).mem = s.mem := rfl
@[simp] theorem State.modCtx_poison (s : State) (f : Ctx → Ctx) : (s.modCtx f).poison = s.poison := rfl
@[simp] theorem State.modCtx_clusters (s : State) (f : Ctx → Ctx) : (s.modCtx f).clusters = s.clusters := rfl
@[simp] theorem State.modCtx_dies (s : State) (f : Ctx → Ctx) : (s.modCtx f).dies = s.dies := rfl
@[simp] theorem State.modCtx_hub (s : State) (f : Ctx → Ctx) : (s.modCtx f).hub = s.hub := rfl
@[simp] theorem State.modCtx_net (s : State) (f : Ctx → Ctx) : (s.modCtx f).net = s.net := rfl
@[simp] theorem State.modCtx_clk (s : State) (f : Ctx → Ctx) : (s.modCtx f).clk = s.clk := rfl
@[simp] theorem State.modCtx_core (s : State) (f : Ctx → Ctx) : (s.modCtx f).core = s.core := rfl
@[simp] theorem State.modCtx_slot (s : State) (f : Ctx → Ctx) : (s.modCtx f).slot = s.slot := rfl
@[simp] theorem State.modCtx_pair (s : State) (f : Ctx → Ctx) : (s.modCtx f).pair = s.pair := rfl
@[simp] theorem State.modCtx_popped (s : State) (f : Ctx → Ctx) : (s.modCtx f).popped = s.popped := rfl
@[simp] theorem State.modCtx_act (s : State) (f : Ctx → Ctx) : (s.modCtx f).act = s.act := rfl
@[simp] theorem State.modCtx_agenda (s : State) (f : Ctx → Ctx) : (s.modCtx f).agenda = s.agenda := rfl
@[simp] theorem State.modCtx_focus (s : State) (f : Ctx → Ctx) : (s.modCtx f).focus = s.focus := rfl
@[simp] theorem State.modCtx_seq (s : State) (f : Ctx → Ctx) : (s.modCtx f).seq = s.seq := rfl
@[simp] theorem State.modCtx_free (s : State) (f : Ctx → Ctx) : (s.modCtx f).free = s.free := rfl
@[simp] theorem State.modCtx_ticks (s : State) (f : Ctx → Ctx) : (s.modCtx f).ticks = s.ticks := rfl

@[simp] theorem State.modCur_mem (s : State) (f : Core → Core) : (s.modCur f).mem = s.mem := rfl
@[simp] theorem State.modCur_poison (s : State) (f : Core → Core) : (s.modCur f).poison = s.poison := rfl
@[simp] theorem State.modCur_clusters (s : State) (f : Core → Core) : (s.modCur f).clusters = s.clusters := rfl
@[simp] theorem State.modCur_dies (s : State) (f : Core → Core) : (s.modCur f).dies = s.dies := rfl
@[simp] theorem State.modCur_hub (s : State) (f : Core → Core) : (s.modCur f).hub = s.hub := rfl
@[simp] theorem State.modCur_net (s : State) (f : Core → Core) : (s.modCur f).net = s.net := rfl
@[simp] theorem State.modCur_clk (s : State) (f : Core → Core) : (s.modCur f).clk = s.clk := rfl
@[simp] theorem State.modCur_core (s : State) (f : Core → Core) : (s.modCur f).core = s.core := rfl
@[simp] theorem State.modCur_slot (s : State) (f : Core → Core) : (s.modCur f).slot = s.slot := rfl
@[simp] theorem State.modCur_pair (s : State) (f : Core → Core) : (s.modCur f).pair = s.pair := rfl
@[simp] theorem State.modCur_popped (s : State) (f : Core → Core) : (s.modCur f).popped = s.popped := rfl
@[simp] theorem State.modCur_act (s : State) (f : Core → Core) : (s.modCur f).act = s.act := rfl
@[simp] theorem State.modCur_agenda (s : State) (f : Core → Core) : (s.modCur f).agenda = s.agenda := rfl
@[simp] theorem State.modCur_focus (s : State) (f : Core → Core) : (s.modCur f).focus = s.focus := rfl
@[simp] theorem State.modCur_seq (s : State) (f : Core → Core) : (s.modCur f).seq = s.seq := rfl
@[simp] theorem State.modCur_free (s : State) (f : Core → Core) : (s.modCur f).free = s.free := rfl
@[simp] theorem State.modCur_ticks (s : State) (f : Core → Core) : (s.modCur f).ticks = s.ticks := rfl

@[simp] theorem State.enter_mem (s : State) (st : SlotSt) : (s.enter st).mem = s.mem := rfl
@[simp] theorem State.enter_poison (s : State) (st : SlotSt) : (s.enter st).poison = s.poison := rfl
@[simp] theorem State.enter_clusters (s : State) (st : SlotSt) : (s.enter st).clusters = s.clusters := rfl
@[simp] theorem State.enter_dies (s : State) (st : SlotSt) : (s.enter st).dies = s.dies := rfl
@[simp] theorem State.enter_hub (s : State) (st : SlotSt) : (s.enter st).hub = s.hub := rfl
@[simp] theorem State.enter_net (s : State) (st : SlotSt) : (s.enter st).net = s.net := rfl
@[simp] theorem State.enter_clk (s : State) (st : SlotSt) : (s.enter st).clk = s.clk := rfl
@[simp] theorem State.enter_core (s : State) (st : SlotSt) : (s.enter st).core = s.core := rfl
@[simp] theorem State.enter_slot (s : State) (st : SlotSt) : (s.enter st).slot = s.slot := rfl
@[simp] theorem State.enter_pair (s : State) (st : SlotSt) : (s.enter st).pair = s.pair := rfl
@[simp] theorem State.enter_popped (s : State) (st : SlotSt) : (s.enter st).popped = s.popped := rfl
@[simp] theorem State.enter_act (s : State) (st : SlotSt) : (s.enter st).act = s.act := rfl
@[simp] theorem State.enter_agenda (s : State) (st : SlotSt) : (s.enter st).agenda = s.agenda := rfl
@[simp] theorem State.enter_focus (s : State) (st : SlotSt) : (s.enter st).focus = s.focus := rfl
@[simp] theorem State.enter_seq (s : State) (st : SlotSt) : (s.enter st).seq = s.seq := rfl
@[simp] theorem State.enter_free (s : State) (st : SlotSt) : (s.enter st).free = s.free := rfl
@[simp] theorem State.enter_ticks (s : State) (st : SlotSt) : (s.enter st).ticks = s.ticks := rfl

@[simp] theorem State.raise_mem (s : State) (f : Flags) : (s.raise f).mem = s.mem := rfl
@[simp] theorem State.raise_poison (s : State) (f : Flags) : (s.raise f).poison = s.poison := rfl
@[simp] theorem State.raise_clusters (s : State) (f : Flags) : (s.raise f).clusters = s.clusters := rfl
@[simp] theorem State.raise_dies (s : State) (f : Flags) : (s.raise f).dies = s.dies := rfl
@[simp] theorem State.raise_hub (s : State) (f : Flags) : (s.raise f).hub = s.hub := rfl
@[simp] theorem State.raise_net (s : State) (f : Flags) : (s.raise f).net = s.net := rfl
@[simp] theorem State.raise_clk (s : State) (f : Flags) : (s.raise f).clk = s.clk := rfl
@[simp] theorem State.raise_core (s : State) (f : Flags) : (s.raise f).core = s.core := rfl
@[simp] theorem State.raise_slot (s : State) (f : Flags) : (s.raise f).slot = s.slot := rfl
@[simp] theorem State.raise_pair (s : State) (f : Flags) : (s.raise f).pair = s.pair := rfl
@[simp] theorem State.raise_popped (s : State) (f : Flags) : (s.raise f).popped = s.popped := rfl
@[simp] theorem State.raise_act (s : State) (f : Flags) : (s.raise f).act = s.act := rfl
@[simp] theorem State.raise_agenda (s : State) (f : Flags) : (s.raise f).agenda = s.agenda := rfl
@[simp] theorem State.raise_focus (s : State) (f : Flags) : (s.raise f).focus = s.focus := rfl
@[simp] theorem State.raise_seq (s : State) (f : Flags) : (s.raise f).seq = s.seq := rfl
@[simp] theorem State.raise_free (s : State) (f : Flags) : (s.raise f).free = s.free := rfl
@[simp] theorem State.raise_ticks (s : State) (f : Flags) : (s.raise f).ticks = s.ticks := rfl

@[simp] theorem State.bump_mem (s : State) : (s.bump).mem = s.mem := rfl
@[simp] theorem State.bump_poison (s : State) : (s.bump).poison = s.poison := rfl
@[simp] theorem State.bump_cores (s : State) : (s.bump).cores = s.cores := rfl
@[simp] theorem State.bump_clusters (s : State) : (s.bump).clusters = s.clusters := rfl
@[simp] theorem State.bump_dies (s : State) : (s.bump).dies = s.dies := rfl
@[simp] theorem State.bump_hub (s : State) : (s.bump).hub = s.hub := rfl
@[simp] theorem State.bump_net (s : State) : (s.bump).net = s.net := rfl
@[simp] theorem State.bump_clk (s : State) : (s.bump).clk = s.clk := rfl
@[simp] theorem State.bump_core (s : State) : (s.bump).core = s.core := rfl
@[simp] theorem State.bump_slot (s : State) : (s.bump).slot = s.slot := rfl
@[simp] theorem State.bump_pair (s : State) : (s.bump).pair = s.pair := rfl
@[simp] theorem State.bump_popped (s : State) : (s.bump).popped = s.popped := rfl
@[simp] theorem State.bump_act (s : State) : (s.bump).act = s.act := rfl
@[simp] theorem State.bump_agenda (s : State) : (s.bump).agenda = s.agenda := rfl
@[simp] theorem State.bump_focus (s : State) : (s.bump).focus = s.focus := rfl
@[simp] theorem State.bump_free (s : State) : (s.bump).free = s.free := rfl
@[simp] theorem State.bump_ticks (s : State) : (s.bump).ticks = s.ticks := rfl

@[simp] theorem State.advance_mem (s : State) : (s.advance).mem = s.mem := rfl
@[simp] theorem State.advance_poison (s : State) : (s.advance).poison = s.poison := rfl
@[simp] theorem State.advance_clusters (s : State) : (s.advance).clusters = s.clusters := rfl
@[simp] theorem State.advance_dies (s : State) : (s.advance).dies = s.dies := rfl
@[simp] theorem State.advance_hub (s : State) : (s.advance).hub = s.hub := rfl
@[simp] theorem State.advance_net (s : State) : (s.advance).net = s.net := rfl
@[simp] theorem State.advance_clk (s : State) : (s.advance).clk = s.clk := rfl
@[simp] theorem State.advance_core (s : State) : (s.advance).core = s.core := rfl
@[simp] theorem State.advance_slot (s : State) : (s.advance).slot = s.slot := rfl
@[simp] theorem State.advance_pair (s : State) : (s.advance).pair = s.pair := rfl
@[simp] theorem State.advance_popped (s : State) : (s.advance).popped = s.popped := rfl
@[simp] theorem State.advance_act (s : State) : (s.advance).act = s.act := rfl
@[simp] theorem State.advance_agenda (s : State) : (s.advance).agenda = s.agenda := rfl
@[simp] theorem State.advance_focus (s : State) : (s.advance).focus = s.focus := rfl
@[simp] theorem State.advance_seq (s : State) : (s.advance).seq = s.seq := rfl
@[simp] theorem State.advance_free (s : State) : (s.advance).free = s.free := rfl
@[simp] theorem State.advance_ticks (s : State) : (s.advance).ticks = s.ticks := rfl

@[simp] theorem State.commitStart_mem (s : State) : (s.commitStart).mem = s.mem := rfl
@[simp] theorem State.commitStart_poison (s : State) : (s.commitStart).poison = s.poison := rfl
@[simp] theorem State.commitStart_clusters (s : State) : (s.commitStart).clusters = s.clusters := rfl
@[simp] theorem State.commitStart_dies (s : State) : (s.commitStart).dies = s.dies := rfl
@[simp] theorem State.commitStart_hub (s : State) : (s.commitStart).hub = s.hub := rfl
@[simp] theorem State.commitStart_net (s : State) : (s.commitStart).net = s.net := rfl
@[simp] theorem State.commitStart_clk (s : State) : (s.commitStart).clk = s.clk := rfl
@[simp] theorem State.commitStart_core (s : State) : (s.commitStart).core = s.core := rfl
@[simp] theorem State.commitStart_slot (s : State) : (s.commitStart).slot = s.slot := rfl
@[simp] theorem State.commitStart_pair (s : State) : (s.commitStart).pair = s.pair := rfl
@[simp] theorem State.commitStart_popped (s : State) : (s.commitStart).popped = s.popped := rfl
@[simp] theorem State.commitStart_act (s : State) : (s.commitStart).act = s.act := rfl
@[simp] theorem State.commitStart_agenda (s : State) : (s.commitStart).agenda = s.agenda := rfl
@[simp] theorem State.commitStart_focus (s : State) : (s.commitStart).focus = s.focus := rfl
@[simp] theorem State.commitStart_seq (s : State) : (s.commitStart).seq = s.seq := rfl
@[simp] theorem State.commitStart_free (s : State) : (s.commitStart).free = s.free := rfl
@[simp] theorem State.commitStart_ticks (s : State) : (s.commitStart).ticks = s.ticks := rfl

@[simp] theorem State.writeV_mem (s : State) (d : VIx) (v : VWord) : (s.writeV d v).mem = s.mem := rfl
@[simp] theorem State.writeV_poison (s : State) (d : VIx) (v : VWord) : (s.writeV d v).poison = s.poison := rfl
@[simp] theorem State.writeV_clusters (s : State) (d : VIx) (v : VWord) : (s.writeV d v).clusters = s.clusters := rfl
@[simp] theorem State.writeV_dies (s : State) (d : VIx) (v : VWord) : (s.writeV d v).dies = s.dies := rfl
@[simp] theorem State.writeV_hub (s : State) (d : VIx) (v : VWord) : (s.writeV d v).hub = s.hub := rfl
@[simp] theorem State.writeV_net (s : State) (d : VIx) (v : VWord) : (s.writeV d v).net = s.net := rfl
@[simp] theorem State.writeV_clk (s : State) (d : VIx) (v : VWord) : (s.writeV d v).clk = s.clk := rfl
@[simp] theorem State.writeV_core (s : State) (d : VIx) (v : VWord) : (s.writeV d v).core = s.core := rfl
@[simp] theorem State.writeV_slot (s : State) (d : VIx) (v : VWord) : (s.writeV d v).slot = s.slot := rfl
@[simp] theorem State.writeV_pair (s : State) (d : VIx) (v : VWord) : (s.writeV d v).pair = s.pair := rfl
@[simp] theorem State.writeV_popped (s : State) (d : VIx) (v : VWord) : (s.writeV d v).popped = s.popped := rfl
@[simp] theorem State.writeV_act (s : State) (d : VIx) (v : VWord) : (s.writeV d v).act = s.act := rfl
@[simp] theorem State.writeV_agenda (s : State) (d : VIx) (v : VWord) : (s.writeV d v).agenda = s.agenda := rfl
@[simp] theorem State.writeV_focus (s : State) (d : VIx) (v : VWord) : (s.writeV d v).focus = s.focus := rfl
@[simp] theorem State.writeV_seq (s : State) (d : VIx) (v : VWord) : (s.writeV d v).seq = s.seq := rfl
@[simp] theorem State.writeV_free (s : State) (d : VIx) (v : VWord) : (s.writeV d v).free = s.free := rfl
@[simp] theorem State.writeV_ticks (s : State) (d : VIx) (v : VWord) : (s.writeV d v).ticks = s.ticks := rfl

@[simp] theorem State.writeP_mem (s : State) (p : PIx) (b : Bool) : (s.writeP p b).mem = s.mem := rfl
@[simp] theorem State.writeP_poison (s : State) (p : PIx) (b : Bool) : (s.writeP p b).poison = s.poison := rfl
@[simp] theorem State.writeP_clusters (s : State) (p : PIx) (b : Bool) : (s.writeP p b).clusters = s.clusters := rfl
@[simp] theorem State.writeP_dies (s : State) (p : PIx) (b : Bool) : (s.writeP p b).dies = s.dies := rfl
@[simp] theorem State.writeP_hub (s : State) (p : PIx) (b : Bool) : (s.writeP p b).hub = s.hub := rfl
@[simp] theorem State.writeP_net (s : State) (p : PIx) (b : Bool) : (s.writeP p b).net = s.net := rfl
@[simp] theorem State.writeP_clk (s : State) (p : PIx) (b : Bool) : (s.writeP p b).clk = s.clk := rfl
@[simp] theorem State.writeP_core (s : State) (p : PIx) (b : Bool) : (s.writeP p b).core = s.core := rfl
@[simp] theorem State.writeP_slot (s : State) (p : PIx) (b : Bool) : (s.writeP p b).slot = s.slot := rfl
@[simp] theorem State.writeP_pair (s : State) (p : PIx) (b : Bool) : (s.writeP p b).pair = s.pair := rfl
@[simp] theorem State.writeP_popped (s : State) (p : PIx) (b : Bool) : (s.writeP p b).popped = s.popped := rfl
@[simp] theorem State.writeP_act (s : State) (p : PIx) (b : Bool) : (s.writeP p b).act = s.act := rfl
@[simp] theorem State.writeP_agenda (s : State) (p : PIx) (b : Bool) : (s.writeP p b).agenda = s.agenda := rfl
@[simp] theorem State.writeP_focus (s : State) (p : PIx) (b : Bool) : (s.writeP p b).focus = s.focus := rfl
@[simp] theorem State.writeP_seq (s : State) (p : PIx) (b : Bool) : (s.writeP p b).seq = s.seq := rfl
@[simp] theorem State.writeP_free (s : State) (p : PIx) (b : Bool) : (s.writeP p b).free = s.free := rfl
@[simp] theorem State.writeP_ticks (s : State) (p : PIx) (b : Bool) : (s.writeP p b).ticks = s.ticks := rfl

/-! ### Tables -/

/-- The entry just set. -/
@[simp] theorem tabGet_tabPut_same {α : Type} (t : Tab α) (k : Nat) (a : α) : tabGet (tabPut t k a) k = some a := by
  induction t with
  | nil => simp [tabPut, tabGet]
  | cons e t ih =>
    obtain ⟨j, b⟩ := e
    simp only [tabPut]
    split
    · simp [tabGet]
    · split
      · simp [tabGet]
      · rename_i h1 h2
        have : ¬j = k := fun h => h2 h.symm
        simp [tabGet, this, ih]

/-- Another entry stays. -/
theorem tabGet_tabPut_other {α : Type} (t : Tab α) {j k : Nat} (a : α) (h : j ≠ k) :
    tabGet (tabPut t k a) j = tabGet t j := by
  induction t with
  | nil => simp [tabPut, tabGet, Ne.symm h]
  | cons e t ih =>
    obtain ⟨i, b⟩ := e
    simp only [tabPut]
    split
    · simp [tabGet, Ne.symm h]
    · split
      · rename_i h2
        subst h2
        simp [tabGet, Ne.symm h]
      · simp only [tabGet, ih]

/-- The second of two settings of one entry decides. -/
@[simp] theorem tabPut_tabPut {α : Type} (t : Tab α) (k : Nat) (a b : α) : tabPut (tabPut t k a) k b = tabPut t k b := by
  induction t with
  | nil => simp [tabPut]
  | cons e t ih =>
    obtain ⟨j, c⟩ := e
    simp only [tabPut]
    split
    · simp [tabPut]
    · split
      · rename_i h1 h2
        subst h2
        simp [tabPut]
      · rename_i h1 h2
        simp [tabPut, h1, h2, ih]

/-! ### Cores, slots and tasks -/

@[simp] theorem State.coreAt_modCore_same (s : State) (n : Nat) (f : Core → Core) :
    (s.modCore n f).coreAt n = f (s.coreAt n) := by simp [State.modCore, State.coreAt]

theorem State.coreAt_modCore_other (s : State) {m n : Nat} (f : Core → Core) (h : m ≠ n) :
    (s.modCore n f).coreAt m = s.coreAt m := by simp [State.modCore, State.coreAt, tabGet_tabPut_other _ _ h]

@[simp] theorem State.modCore_modCore (s : State) (n : Nat) (f g : Core → Core) :
    (s.modCore n f).modCore n g = s.modCore n fun c => g (f c) := by
  simp [State.modCore, State.coreAt]

@[simp] theorem State.slotAt_modSlot_same (s : State) (n : Nat) (i : Fin 16) (f : Slot → Slot) :
    (s.modSlot n i f).slotAt n i = f (s.slotAt n i) := by simp [State.modSlot, State.slotAt]

theorem State.slotAt_modSlot_other (s : State) (n : Nat) {i j : Fin 16} (f : Slot → Slot) (h : j ≠ i) :
    (s.modSlot n i f).slotAt n j = s.slotAt n j := by
  have : ¬(i : Nat) = (j : Nat) := fun e => h (Fin.ext e.symm)
  simp [State.modSlot, State.slotAt, this]

theorem State.slotAt_modCore (s : State) (n : Nat) (i : Fin 16) (f : Core → Core) :
    (s.modCore n f).slotAt n i = (f (s.coreAt n)).slots[i] := by simp [State.slotAt]

/-- A change of a core that leaves its slots alone leaves every slot alone. -/
theorem State.slotAt_modCore_keep (s : State) (n : Nat) {f : Core → Core} (h : ∀ c, (f c).slots = c.slots) (m : Nat) (i : Fin 16) :
    (s.modCore n f).slotAt m i = s.slotAt m i := by
  by_cases e : m = n
  · subst e
    rw [State.slotAt_modCore]
    unfold State.slotAt
    simp [h]
  · unfold State.slotAt
    rw [State.coreAt_modCore_other _ _ e]

@[simp] theorem State.ctxAt_modCtxAt_same (s : State) (n : Nat) (i : Fin 16) (f : Ctx → Ctx) :
    (s.modCtxAt n i f).ctxAt n i = f (s.ctxAt n i) := by simp [State.modCtxAt, State.ctxAt]

theorem State.ctxAt_modCtxAt_other (s : State) (n : Nat) {i j : Fin 16} (f : Ctx → Ctx) (h : j ≠ i) :
    (s.modCtxAt n i f).ctxAt n j = s.ctxAt n j := by
  simp [State.modCtxAt, State.ctxAt, State.slotAt_modSlot_other _ _ _ h]

/-- The state of a slot stays when its task changes. -/
@[simp] theorem State.st_modCtx (s : State) (f : Ctx → Ctx) : (s.modCtx f).st = s.st := by
  simp [State.st, State.modCtx, State.modCtxAt]

/-- The issuing task after it was changed. -/
@[simp] theorem State.ctx_modCtx (s : State) (f : Ctx → Ctx) : (s.modCtx f).ctx = f s.ctx := by
  simp [State.ctx, State.modCtx]

/-- Two changes of the issuing task are one. -/
@[simp] theorem State.modCtx_modCtx (s : State) (f g : Ctx → Ctx) :
    (s.modCtx f).modCtx g = s.modCtx fun c => g (f c) := by
  simp [State.modCtx, State.modCtxAt, State.modSlot]

/-- Two changes of a slot are one. -/
@[simp] theorem State.modSlot_modSlot (s : State) (n : Nat) (i : Fin 16) (f g : Slot → Slot) :
    (s.modSlot n i f).modSlot n i g = s.modSlot n i fun x => g (f x) := by
  simp [State.modSlot]

/-- A change of a slot and then of its core is one change of the core. -/
theorem State.modCore_modSlot (s : State) (n : Nat) (i : Fin 16) (f : Slot → Slot) (g : Core → Core) :
    (s.modSlot n i f).modCore n g = s.modCore n fun c => g { c with slots := c.slots.set i (f c.slots[i]) } := by
  simp [State.modSlot]

/-- The task of a slot that enters a state: the clk in a counted state have gone to PCNT 1 (R275). -/
def State.entered (s : State) (n : Nat) (i : Fin 16) (st : SlotSt) : Ctx :=
  if (s.slotAt n i).st.counted && (s.slotAt n i).st != st then
    { s.ctxAt n i with pcnt1 := (s.ctxAt n i).pcnt1 + (s.clk - (s.slotAt n i).since) } else s.ctxAt n i

/-- The task of a slot that has entered a state. -/
theorem State.ctxAt_setSt (s : State) (n : Nat) (i : Fin 16) (st : SlotSt) : (s.setSt n i st).ctxAt n i = s.entered n i st := by
  unfold State.setSt State.ctxAt State.entered
  rw [State.slotAt_modSlot_same]
  rfl

/-- The state of a slot that has entered it. -/
@[simp] theorem State.st_setSt (s : State) (n : Nat) (i : Fin 16) (st : SlotSt) : ((s.setSt n i st).slotAt n i).st = st := by
  unfold State.setSt
  rw [State.slotAt_modSlot_same]

/-- The task of a slot that has taken its issue (R11, R275). -/
theorem State.ctx_commitStart (s : State) : s.commitStart.ctx =
    { s.entered s.core s.slot .issued with
      pcnt0 := (s.entered s.core s.slot .issued).pcnt0 + 1, pairs := (s.entered s.core s.slot .issued).pairs + 1
      bpSkip := none, answered := none, settleDue := false } := by
  rw [← State.ctxAt_setSt]
  unfold State.commitStart State.ctx State.ctxAt
  simp only [State.modCur, State.modCore_core, State.modCore_slot, State.slotAt_modCore, State.enter_core, State.enter_slot, State.modSlot_core, State.modSlot_slot]
  rw [← State.slotAt, State.slotAt_modSlot_same]
  rfl

@[simp] theorem State.hub_modHub (s : State) (f : Hub → Hub) : (s.modHub f).hub = f s.hub := rfl

@[simp] theorem State.seq_bump (s : State) : s.bump.seq = s.seq + 1 := rfl

/-! ### Registers of a task -/

@[simp] theorem Ctx.setG_same (c : Ctx) (d : GIx) (v : Word) :
    (c.setG d v).g[d] = { val := v, f := true, d := false, tag := none } := by simp [Ctx.setG]

theorem Ctx.setG_other (c : Ctx) {d e : GIx} (v : Word) (h : e ≠ d) : (c.setG d v).g[e] = c.g[e] := by
  have : ¬(d : Nat) = (e : Nat) := fun x => h (Fin.ext x.symm)
  simp [Ctx.setG, this]

@[simp] theorem Ctx.setV_same (c : Ctx) (d : VIx) (v : VWord) :
    (c.setV d v).v[d] = { val := v, f := true, d := false, tag := none } := by simp [Ctx.setV]

theorem Ctx.setV_other (c : Ctx) {d e : VIx} (v : VWord) (h : e ≠ d) : (c.setV d v).v[e] = c.v[e] := by
  have : ¬(d : Nat) = (e : Nat) := fun x => h (Fin.ext x.symm)
  simp [Ctx.setV, this]

/-- p0 is one, whatever was written to it (R12). -/
@[simp] theorem Ctx.pred_zero (c : Ctx) : c.pred 0 = true := by simp [Ctx.pred]

/-- A write to p0 is ignored (R12). -/
@[simp] theorem Ctx.setP_zero (c : Ctx) (b : Bool) : c.setP 0 b = c := by simp [Ctx.setP]

end Sys2Proof.Machine
end

