-- ==== Sys2Proof/Laws/Memory.lean ====
section
/-! SUPPORT. Memory: what is read after a write, and the canonical form that every memory operation keeps (log 1). -/

namespace Sys2Proof.Machine

/-! ### The canonical form -/

/-- A lower bound may be lowered. -/
theorem memWfFrom_mono {lo hi : Nat} (h : lo ≤ hi) {m : List Host.Cell} (w : memWfFrom hi m = true) :
    memWfFrom lo m = true := by
  cases m with
  | nil => rfl
  | cons e m =>
    obtain ⟨k, b⟩ := e
    simp only [memWfFrom, Bool.and_eq_true, decide_eq_true_eq] at w ⊢
    exact ⟨⟨by omega, w.1.2⟩, w.2⟩

/-- A write at or above the lower bound keeps the form. -/
theorem memWfFrom_memWrite {m : List Host.Cell} : ∀ {lo a : Nat} (b : Byte), memWfFrom lo m = true → lo ≤ a →
    memWfFrom lo (memWrite m a b) = true := by
  induction m with
  | nil =>
    intro lo a b _ h
    simp only [memWrite]
    split
    · rfl
    · simp_all [memWfFrom]
  | cons e m ih =>
    intro lo a b w h
    obtain ⟨k, c⟩ := e
    simp only [memWfFrom, Bool.and_eq_true, decide_eq_true_eq] at w
    simp only [memWrite]
    split
    · split
      · simpa [memWfFrom] using w
      · have : a + 1 ≤ k := by omega
        simp_all [memWfFrom]
    · split
      · subst_vars
        split
        · exact memWfFrom_mono (by omega) w.2
        · simp_all [memWfFrom]
      · simp only [memWfFrom, Bool.and_eq_true, decide_eq_true_eq]
        exact ⟨w.1, ih b w.2 (by omega)⟩

/-- A byte written keeps the canonical form. -/
theorem memWf_memWrite {m : List Host.Cell} (a : Nat) (b : Byte) (w : memWf m = true) : memWf (memWrite m a b) = true :=
  memWfFrom_memWrite b w (Nat.zero_le a)

/-- A number stored keeps the canonical form. -/
theorem memWf_memPut (n : Nat) : ∀ {m : List Host.Cell} (a v : Nat), memWf m = true → memWf (memPut m a n v) = true := by
  induction n with
  | zero => intro m a v w; exact w
  | succ n ih => intro m a v w; exact ih _ _ (memWf_memWrite _ _ w)

/-- Cells left out keep the canonical form. -/
theorem memWfFrom_filter {m : List Host.Cell} (p : Host.Cell → Bool) : ∀ {lo : Nat}, memWfFrom lo m = true →
    memWfFrom lo (m.filter p) = true := by
  induction m with
  | nil => intro lo w; exact w
  | cons e m ih =>
    intro lo w
    obtain ⟨k, c⟩ := e
    simp only [memWfFrom, Bool.and_eq_true, decide_eq_true_eq] at w
    simp only [List.filter_cons]
    split
    · simp only [memWfFrom, Bool.and_eq_true, decide_eq_true_eq]
      exact ⟨w.1, ih w.2⟩
    · exact memWfFrom_mono (by omega) (ih w.2)

/-- Cells left out keep the canonical form. -/
theorem memWf_filter {m : List Host.Cell} (p : Host.Cell → Bool) (w : memWf m = true) : memWf (m.filter p) = true :=
  memWfFrom_filter p w

/-- A store keeps the canonical form. -/
theorem State.store_wf (s : State) (key n v : Nat) (w : memWf s.mem = true) : memWf (s.store key n v).mem = true := by
  unfold State.store
  split
  · exact w
  · exact memWf_memPut n key _ w

/-- A part of a store keeps the canonical form. -/
theorem State.storePart_wf (s : State) (line len key n v : Nat) (last : Bool) (w : memWf s.mem = true) :
    memWf (s.storePart line len key n v last).mem = true := by
  unfold State.storePart
  split
  · exact w
  · exact memWf_memPut n key _ w

/-- Bytes stored unit by unit keep the canonical form. -/
theorem State.storeUnits_wf (fuel : Nat) : ∀ (s : State) (key : Nat) (bs : List Byte), memWf s.mem = true →
    memWf (s.storeUnits key bs fuel).mem = true := by
  induction fuel with
  | zero => intro s key bs w; exact w
  | succ n ih =>
    intro s key bs w
    unfold State.storeUnits
    split
    · exact w
    · exact ih _ _ _ (State.store_wf s key _ _ w)

/-- Bytes stored in order keep the canonical form. -/
theorem State.storeBytes_wf (bs : List Byte) (s : State) (key : Nat) (w : memWf s.mem = true) :
    memWf (s.storeBytes key bs).mem = true := State.storeUnits_wf _ s key bs w

/-- Memory at reset is in its canonical form. -/
theorem State.reset_wf : memWf State.reset.mem = true := rfl

/-! ### Reads after writes -/

/-- Nothing is listed below the lower bound. -/
theorem memRead_below {m : List Host.Cell} : ∀ {lo a : Nat}, memWfFrom lo m = true → a < lo → memRead m a = 0 := by
  induction m with
  | nil => intros; rfl
  | cons e m ih =>
    intro lo a w h
    obtain ⟨k, c⟩ := e
    simp only [memWfFrom, Bool.and_eq_true, decide_eq_true_eq] at w
    have : ¬k = a := by omega
    simp only [memRead, this, if_false]
    exact ih w.2 (by omega)

/-- A write leaves every other byte alone. -/
theorem memRead_memWrite_other {m : List Host.Cell} {a x : Nat} (b : Byte) (h : x ≠ a) :
    memRead (memWrite m a b) x = memRead m x := by
  induction m with
  | nil =>
    simp only [memWrite]
    split <;> simp [memRead, Ne.symm h]
  | cons e m ih =>
    obtain ⟨k, c⟩ := e
    simp only [memWrite]
    split
    · split
      · rfl
      · simp [memRead, Ne.symm h]
    · split
      · subst_vars
        split <;> simp [memRead, Ne.symm h]
      · simp only [memRead, ih]

/-- The byte just written is read, in a memory in canonical form. -/
theorem memRead_memWrite_same {m : List Host.Cell} : ∀ {lo a : Nat} (b : Byte), memWfFrom lo m = true →
    memRead (memWrite m a b) a = b := by
  induction m with
  | nil =>
    intro lo a b _
    simp only [memWrite]
    split <;> simp_all [memRead]
  | cons e m ih =>
    intro lo a b w
    obtain ⟨k, c⟩ := e
    simp only [memWfFrom, Bool.and_eq_true, decide_eq_true_eq] at w
    simp only [memWrite]
    split
    · split
      · rename_i h0
        have : ¬k = a := by omega
        simp only [memRead, this, if_false, h0]
        exact memRead_below w.2 (by omega)
      · simp [memRead]
    · split
      · subst_vars
        split
        · rename_i h0
          rw [h0]
          exact memRead_below w.2 (by omega)
        · simp [memRead]
      · rename_i h1 h2
        have : ¬k = a := fun e => h2 e.symm
        simp only [memRead, this, if_false]
        exact ih b w.2

/-- A number stored leaves every byte outside its bytes alone. -/
theorem memRead_memPut_other (n : Nat) : ∀ {m : List Host.Cell} {a x : Nat} (v : Nat), x < a ∨ a + n ≤ x →
    memRead (memPut m a n v) x = memRead m x := by
  induction n with
  | zero => intros; rfl
  | succ n ih =>
    intro m a x v h
    simp only [memPut]
    rw [ih _ (by omega), memRead_memWrite_other _ (by omega)]

/-- The bytes of a number just stored, in a memory in canonical form. -/
theorem memGet_memPut_same (n : Nat) : ∀ {m : List Host.Cell} (a v : Nat), memWf m = true → v < 256 ^ n →
    memGet (memPut m a n v) a n = v := by
  induction n with
  | zero => intro m a v _ h; simp at h; simp [memGet, h]
  | succ n ih =>
    intro m a v w h
    simp only [memPut, memGet]
    rw [memRead_memPut_other n _ (by omega), memRead_memWrite_same _ w,
      ih _ _ (memWf_memWrite _ _ w) (by rw [Nat.pow_succ] at h; omega)]
    simp only [BitVec.toNat_ofNat]
    omega

/-- Bytes read outside the bytes of a number just stored. -/
theorem memGet_memPut_other (k : Nat) : ∀ {m : List Host.Cell} {a x n : Nat} (v : Nat), x + k ≤ a ∨ a + n ≤ x →
    memGet (memPut m a n v) x k = memGet m x k := by
  induction k with
  | zero => intros; rfl
  | succ k ih =>
    intro m a x n v h
    simp only [memGet]
    rw [memRead_memPut_other n _ (by omega), ih _ (by omega)]

/-- A number that memory holds fits its bytes. -/
theorem memGet_lt (m : List Host.Cell) (n : Nat) : ∀ a, memGet m a n < 256 ^ n := by
  induction n with
  | zero => intro a; simp [memGet]
  | succ n ih =>
    intro a
    have h1 := ih (a + 1)
    have h2 := (memRead m a).isLt
    simp only [memGet, Nat.pow_succ]
    omega

/-- What failures have made of bytes fits them. -/
theorem lossOf_lt (l : List Loss) (n : Nat) : ∀ a, lossOf l a n < 256 ^ n := by
  induction n with
  | zero => intro a; simp [lossOf]
  | succ n ih =>
    intro a
    have h1 := ih (a + 1)
    have h2 := (lossAt l a).isLt
    simp only [lossOf, Nat.pow_succ]
    omega

/-- What failures have made of `n` bytes fits them. -/
theorem State.loss_lt (s : State) (key n : Nat) : s.loss key n < 256 ^ n := by
  unfold State.loss
  split
  · exact Nat.pow_pos (by decide)
  · exact lossOf_lt _ _ _

/-- Where no part has failed, a key reads as the listed bytes. -/
theorem State.load_noLoss (s : State) (h : s.hub.losses = []) (key n : Nat) : s.load key n = memGet s.mem key n := by
  simp [State.load, State.loss, h]

/-- Where no part has failed, a byte reads as the listed one. -/
theorem State.byte_noLoss (s : State) (h : s.hub.losses = []) (key : Nat) : s.byte key = memRead s.mem key := by
  simp [State.byte, h, lossAt]

/-- Two numbers that fit `n` bytes differ in bits that fit them. -/
theorem xor_lt_bytes {x y : Nat} (n : Nat) (hx : x < 256 ^ n) (hy : y < 256 ^ n) : x ^^^ y < 256 ^ n := by
  rw [show (256 : Nat) = 2 ^ 8 from rfl, ← Nat.pow_mul] at *
  exact Nat.xor_lt_two_pow hx hy

/-- What a store that poison does not drop leaves at its own bytes. -/
theorem State.load_store_same (s : State) {key n v : Nat} (w : memWf s.mem = true) (d : s.dropsStore key n = false)
    (h : v < 256 ^ n) : (s.store key n v).load key n = v := by
  have hl : (s.store key n v).loss key n = s.loss key n := by simp [State.store, d, State.loss]
  have hm : memGet (s.store key n v).mem key n = v ^^^ s.loss key n := by
    simp only [State.store, d, Bool.false_eq_true, if_false, State.put]
    exact memGet_memPut_same n key _ w (xor_lt_bytes n h (s.loss_lt key n))
  rw [State.load, hl, hm, Nat.xor_assoc, Nat.xor_self, Nat.xor_zero]

/-- A store leaves every other byte alone. -/
theorem State.load_store_other (s : State) {key n v x k : Nat} (h : x + k ≤ key ∨ key + n ≤ x) :
    (s.store key n v).load x k = s.load x k := by
  have hl : (s.store key n v).loss x k = s.loss x k := by unfold State.store; split <;> rfl
  unfold State.load
  rw [hl]
  unfold State.store
  split
  · rfl
  · simp only [State.put]
    rw [memGet_memPut_other k _ h]

/-- A store leaves every byte outside its own alone. -/
theorem State.byte_store_other (s : State) {key n v x : Nat} (h : x < key ∨ key + n ≤ x) :
    (s.store key n v).byte x = s.byte x := by
  unfold State.store
  split
  · rfl
  · simp only [State.byte, State.put]
    rw [memRead_memPut_other n _ h]

/-- A part of a store leaves every byte outside its own alone. -/
theorem State.byte_storePart_other (s : State) {line len key n v x : Nat} {last : Bool} (h : x < key ∨ key + n ≤ x) :
    (s.storePart line len key n v last).byte x = s.byte x := by
  unfold State.storePart
  split
  · rfl
  · simp only [State.byte, State.put]
    rw [memRead_memPut_other n _ h]

/-- What a store changes beside memory: poison. -/
theorem State.store_fields (s : State) (key n v : Nat) :
    (s.store key n v).cores = s.cores ∧ (s.store key n v).hub = s.hub ∧ (s.store key n v).clk = s.clk ∧
      (s.store key n v).core = s.core ∧ (s.store key n v).slot = s.slot ∧ (s.store key n v).agenda = s.agenda := by
  unfold State.store
  split <;> exact ⟨rfl, rfl, rfl, rfl, rfl, rfl⟩

end Sys2Proof.Machine
end

