-- ==== Sys2Proof/Laws/Issue.lean ====
section
/-! SUPPORT. Operands and issue: what register gates make of a pair, and the state after a pair that issues. -/

namespace Sys2Proof.Machine

/-! ### Gates -/

theorem anyPark_of_ok {l : List Gate} (h : ∀ x ∈ l, x = Gate.ok) : anyPark l = false := by
  induction l with
  | nil => rfl
  | cons x l ih =>
    have hx := h x (by simp)
    subst hx
    exact ih fun y hy => h y (by simp [hy])

theorem firstTrap_of_ok {l : List Gate} (h : ∀ x ∈ l, x = Gate.ok) : firstTrap l = none := by
  induction l with
  | nil => rfl
  | cons x l ih =>
    have hx := h x (by simp)
    subst hx
    exact ih fun y hy => h y (by simp [hy])

/-- Where every register lets the pair go, the plan reads the sources and then acts. -/
theorem gated_open {s : State} {gs : List GIx} {vs : List VIx} {gd : List GIx} {vd : List VIx} {now : State → State}
    {after : Bool → State → State} (h : s.Open gs vs gd vd) :
    gated s gs vs gd vd (.go now after) = .commit (fun t => t.readAll gs vs) now after := by
  simp [gated, Plan.go, anyPark_of_ok h, firstTrap_of_ok h]

/-- A register that awaits a value parks the pair. -/
theorem gated_park {s : State} {gs : List GIx} {vs : List VIx} {gd : List GIx} {vd : List VIx} {p : Plan}
    (h : anyPark (s.gates gs vs gd vd) = true) : gated s gs vs gd vd p = .park .reg := by
  simp [gated, h]

/-- A port used wrongly stops a pair that would act. -/
theorem gated_trap {s : State} {gs : List GIx} {vs : List VIx} {gd : List GIx} {vd : List VIx} {now : State → State}
    {after : Bool → State → State} {t : Trap}
    (h : anyPark (s.gates gs vs gd vd) = false) (e : firstTrap (s.gates gs vs gd vd) = some t) :
    gated s gs vs gd vd (.go now after) = .trap t := by
  simp [gated, Plan.go, h, e]

/-! ### Status bits -/

@[simp] theorem Ctx.raise_zero (c : Ctx) : c.raise 0#9 = c := by simp [Ctx.raise]

@[simp] theorem State.ctx_raise (s : State) (f : Flags) : (s.raise f).ctx = s.ctx.raise f := by simp [State.raise]

/-- Setting no status bit before a change of the task changes nothing. -/
@[simp] theorem State.modCtx_raise_zero (s : State) (f : Ctx → Ctx) : (s.raise 0).modCtx f = s.modCtx f := by
  simp [State.raise]

/-- Setting no status bit before a result changes nothing. -/
@[simp] theorem State.writeG_raise_zero (s : State) (d : GIx) (v : Word) : (s.raise 0).writeG d v = s.writeG d v := by
  have h : (s.raise 0).ctx = s.ctx := by simp
  unfold State.writeG
  rw [State.modCtx_raise_zero]
  rfl

/-- Setting no status bit before a result changes nothing. -/
@[simp] theorem State.writeV_raise_zero (s : State) (d : VIx) (v : VWord) : (s.raise 0).writeV d v = s.writeV d v :=
  State.modCtx_raise_zero s _

/-! ### One instruction alone in its pair -/

@[simp] theorem issueOne_park (st : SlotSt) (s : State) : issueOne (.park st) s = s.enter st := rfl
@[simp] theorem issueOne_trap (t : Trap) (s : State) : issueOne (.trap t) s = s.trapNow t := rfl
@[simp] theorem issueOne_ask (q : Query) (s : State) : issueOne (.ask q) s = s.asks q := rfl
@[simp] theorem issueOne_commit (reads now : State → State) (after : Bool → State → State) (s : State) :
    issueOne (.commit reads now after) s = after false (now (reads s.commitStart)).advance := rfl
@[simp] theorem issueOne_go (now : State → State) (after : Bool → State → State) (s : State) :
    issueOne (.go now after) s = after false (now s.commitStart).advance := rfl
@[simp] theorem issueOne_act (now : State → State) (s : State) : issueOne (.act now) s = (now s.commitStart).advance := rfl
@[simp] theorem issueOne_nop (s : State) : issueOne Plan.nop s = s.commitStart.advance := rfl

/-- An instruction whose plan is an effect behind its register gates. -/
theorem issues_of_gated {i : Instr} {s : State} {gs : List GIx} {vs : List VIx} {gd : List GIx} {vd : List VIx}
    {f : State → State} (h : exec i s = .next (issueOne (gated s gs vs gd vd (.act f)) s)) : Issues i s gs vs gd vd f := by
  refine ⟨fun o => ?_, fun p => ?_, fun t p e => ?_⟩
  · rw [h, Plan.act, gated_open o]; rfl
  · rw [h, gated_park p]; rfl
  · rw [h, Plan.act, gated_trap p e]; rfl

/-- An instruction with a part of its effect after the commit, behind its register gates. -/
theorem issuesThen_of_gated {i : Instr} {s : State} {gs : List GIx} {vs : List VIx} {gd : List GIx} {vd : List VIx}
    {f : State → State} {g : Bool → State → State} (h : exec i s = .next (issueOne (gated s gs vs gd vd (.go f g)) s)) :
    IssuesThen i s gs vs gd vd f (g false) := by
  refine ⟨fun o => ?_, fun p => ?_, fun t p e => ?_⟩
  · rw [h, gated_open o]; rfl
  · rw [h, gated_park p]; rfl
  · rw [h, gated_trap p e]; rfl

/-- An instruction that names no register and has a part of its effect after the commit. -/
theorem issuesThen_of_go {i : Instr} {s : State} {f : State → State} {g : Bool → State → State}
    (h : exec i s = .next (issueOne (.go f g) s)) : IssuesThen i s [] [] [] [] f (g false) :=
  ⟨fun _ => h, fun p => by simp [State.gates, anyPark] at p, fun t _ e => by simp [State.gates, firstTrap] at e⟩

/-- An instruction that names no register. -/
theorem issues_of_act {i : Instr} {s : State} {f : State → State} (h : exec i s = .next (issueOne (.act f) s)) :
    Issues i s [] [] [] [] f :=
  ⟨fun _ => h, fun p => by simp [State.gates, anyPark] at p, fun t _ e => by simp [State.gates, firstTrap] at e⟩

/-- A vector instruction (R123). -/
theorem issuesV_of_vecPlan {i : Instr} {s : State} {m : Bool} {vs : List VIx} {d : VIx} {r : VWord × Flags}
    (h : exec i s = .next (issueOne (vecPlan s m vs d r) s)) : IssuesV i s m vs d r := by
  refine ⟨fun w => ?_, fun w => issues_of_gated ?_⟩
  · rw [h, vecPlan, if_pos w]; rfl
  · rw [h, vecPlan, w]; rfl

/-! ### What reading the sources changes -/

theorem State.pop_fields (s : State) (k : Fin 4) : ∃ l p, s.pop k = { s with cores := l, popped := p } := by
  unfold State.pop
  split
  · exact ⟨s.cores, s.popped, rfl⟩
  · exact ⟨_, _, rfl⟩

theorem State.readG_fields (s : State) (g : GIx) : ∃ l p, s.readG g = { s with cores := l, popped := p } := by
  unfold State.readG State.sawG
  repeat' split
  all_goals first
    | exact State.pop_fields s _
    | exact ⟨_, s.popped, rfl⟩

theorem State.readV_fields (s : State) (v : VIx) : ∃ l p, s.readV v = { s with cores := l, popped := p } := by
  unfold State.readV
  split <;> exact ⟨_, s.popped, rfl⟩

/-- Reading sources changes the cores and the list of popped ports, and nothing else of the device (R14, R169). -/
theorem State.readAll_fields (gs : List GIx) (vs : List VIx) : ∀ s : State, ∃ l p,
    s.readAll gs vs = { s with cores := l, popped := p } := by
  induction gs with
  | nil =>
    induction vs with
    | nil => exact fun s => ⟨s.cores, s.popped, rfl⟩
    | cons v vs ih =>
      intro s
      obtain ⟨l, p, h⟩ := State.readV_fields s v
      obtain ⟨l', p', h'⟩ := ih (s.readV v)
      refine ⟨l', p', ?_⟩
      have e : s.readAll [] (v :: vs) = (s.readV v).readAll [] vs := rfl
      rw [e, h', h]
  | cons g gs ih =>
    intro s
    obtain ⟨l, p, h⟩ := State.readG_fields s g
    obtain ⟨l', p', h'⟩ := ih (s.readG g)
    refine ⟨l', p', ?_⟩
    have e : s.readAll (g :: gs) vs = (s.readG g).readAll gs vs := rfl
    rw [e, h', h]

@[simp] theorem State.readAll_mem (s : State) (gs : List GIx) (vs : List VIx) : (s.readAll gs vs).mem = s.mem := by
  obtain ⟨l, p, h⟩ := s.readAll_fields gs vs
  rw [h]
@[simp] theorem State.readAll_hub (s : State) (gs : List GIx) (vs : List VIx) : (s.readAll gs vs).hub = s.hub := by
  obtain ⟨l, p, h⟩ := s.readAll_fields gs vs
  rw [h]
@[simp] theorem State.readAll_clk (s : State) (gs : List GIx) (vs : List VIx) : (s.readAll gs vs).clk = s.clk := by
  obtain ⟨l, p, h⟩ := s.readAll_fields gs vs
  rw [h]
@[simp] theorem State.readAll_core (s : State) (gs : List GIx) (vs : List VIx) : (s.readAll gs vs).core = s.core := by
  obtain ⟨l, p, h⟩ := s.readAll_fields gs vs
  rw [h]
@[simp] theorem State.readAll_slot (s : State) (gs : List GIx) (vs : List VIx) : (s.readAll gs vs).slot = s.slot := by
  obtain ⟨l, p, h⟩ := s.readAll_fields gs vs
  rw [h]
@[simp] theorem State.readAll_seq (s : State) (gs : List GIx) (vs : List VIx) : (s.readAll gs vs).seq = s.seq := by
  obtain ⟨l, p, h⟩ := s.readAll_fields gs vs
  rw [h]

/-- A change of the issuing task leaves its core alone, but for the slots. -/
theorem State.cur_modCtx (s : State) (f : Ctx → Ctx) : ∃ l, (s.modCtx f).cur = { s.cur with slots := l } :=
  ⟨_, State.coreAt_modCore_same s s.core _⟩

theorem State.cur_modCur (s : State) (f : Core → Core) : (s.modCur f).cur = f s.cur := State.coreAt_modCore_same s s.core f
theorem State.cur_popped (s : State) (l : List (Fin 4)) : ({ s with popped := l } : State).cur = s.cur := rfl

/-- A pop leaves the issuing core alone, but for its slots and the load-value queue (R169, R380). -/
theorem State.cur_pop (s : State) (k : Fin 4) : ∃ l q, (s.pop k).cur = { s.cur with slots := l, lvq := q } := by
  unfold State.pop
  split
  · exact ⟨s.cur.slots, s.cur.lvq, rfl⟩
  · obtain ⟨l, h⟩ := State.cur_modCtx s fun c => { c with
      ports := c.ports.set k (c.ports[k].map fun p => { p with fifo := p.fifo.drop 1, pos := p.pos + 1 }) }
    refine ⟨l, s.popLv k s.cur.lvq, ?_⟩
    dsimp only
    generalize (s.modCtx _) = u at h ⊢
    rw [State.cur_popped, State.cur_modCur, h]

theorem State.cur_readG (s : State) (g : GIx) : ∃ l q, (s.readG g).cur = { s.cur with slots := l, lvq := q } := by
  have saw : ∃ l q, (s.sawG g).cur = { s.cur with slots := l, lvq := q } := by
    unfold State.sawG
    repeat' split
    all_goals first
      | exact ⟨s.cur.slots, s.cur.lvq, rfl⟩
      | (obtain ⟨l, h⟩ := State.cur_modCtx s _; exact ⟨l, s.cur.lvq, h⟩)
  unfold State.readG
  repeat' split
  all_goals first
    | exact State.cur_pop s _
    | exact saw

theorem State.cur_readV (s : State) (v : VIx) : ∃ l, (s.readV v).cur = { s.cur with slots := l } := by
  unfold State.readV
  split
  · exact State.cur_modCtx s _
  · exact ⟨s.cur.slots, rfl⟩

/-- Reading sources leaves the issuing core alone, but for its slots and the load-value queue (R14, R169, R380). -/
theorem State.cur_readAll (gs : List GIx) (vs : List VIx) : ∀ s : State, ∃ l q,
    (s.readAll gs vs).cur = { s.cur with slots := l, lvq := q } := by
  induction gs with
  | nil =>
    induction vs with
    | nil => exact fun s => ⟨s.cur.slots, s.cur.lvq, rfl⟩
    | cons v vs ih =>
      intro s
      obtain ⟨l, h⟩ := State.cur_readV s v
      obtain ⟨l', q', h'⟩ := ih (s.readV v)
      have e : s.readAll [] (v :: vs) = (s.readV v).readAll [] vs := rfl
      exact ⟨l', q', by rw [e, h', h]⟩
  | cons g gs ih =>
    intro s
    obtain ⟨l, q, h⟩ := State.cur_readG s g
    obtain ⟨l', q', h'⟩ := ih (s.readG g)
    have e : s.readAll (g :: gs) vs = (s.readG g).readAll gs vs := rfl
    exact ⟨l', q', by rw [e, h', h]⟩

/-- The issuing core after the slot has taken its issue and read its sources: its slots, the count of pairs, the round
robin and the load-value queue have changed (R275, R342, R380). -/
theorem State.cur_issuing (s : State) (gs : List GIx) (vs : List VIx) : ∃ l k r q,
    (s.commitStart.readAll gs vs).cur = { s.cur with slots := l, pcnt2 := k, rr := r, lvq := q } := by
  obtain ⟨l, q, h⟩ := State.cur_readAll gs vs s.commitStart
  have e : ∃ l k r, s.commitStart.cur = { s.cur with slots := l, pcnt2 := k, rr := r } := by
    unfold State.commitStart State.modCur State.cur State.enter State.setSt State.modSlot
    simp only [State.modCore_core, State.coreAt_modCore_same, State.modCore_modCore]
    exact ⟨_, _, _, rfl⟩
  obtain ⟨l', k, r, e⟩ := e
  exact ⟨l, k, r, q, by rw [h, e]⟩

/-! ### Registers without a stream port -/

/-- A register that gives a value lets the pair go. -/
theorem State.Reads.gate {s : State} {g : GIx} {v : Word} {fl : Flags} (h : s.Reads g v fl) : s.readGate g = .ok := by
  obtain ⟨p, x, ⟨h1, h2, -, -⟩ | ⟨h2, -, -⟩⟩ := h
  · simp only [State.readGate, p, GReg.waits, h1, x, Bool.not_true, Bool.false_and, Bool.false_eq_true, false_and, if_false]
  · simp only [State.readGate, p, GReg.waits, h2, x, Bool.not_true, Bool.and_false, Bool.false_eq_true, false_and, if_false]

/-- The value that a register gives. -/
theorem State.Reads.value {s : State} {g : GIx} {v : Word} {fl : Flags} (h : s.Reads g v fl) : s.gv g = v := by
  obtain ⟨p, -, ⟨h1, h2, h3, -⟩ | ⟨h2, h3, -⟩⟩ := h
  · simp only [State.gv, p, h2, h3]; rfl
  · simp only [State.gv, p, h2, h3]; rfl

/-- A register that can take a result lets the pair go. -/
theorem State.Takes.gate {s : State} {g : GIx} (h : s.Takes g) : s.writeGate g = .ok := by
  obtain ⟨p, h⟩ := h
  simp only [State.writeGate, p, h]; rfl

/-- A v register that gives a value lets the pair go. -/
theorem State.ReadsV.gate {s : State} {v : VIx} {x : VWord} {fl : Flags} (h : s.ReadsV v x fl) : s.readGateV v = .ok := by
  obtain ⟨h1, h2, -, -⟩ | ⟨h2, -, -⟩ := h
  · simp only [State.readGateV, VReg.waits, h1]; rfl
  · simp only [State.readGateV, VReg.waits, h2, Bool.not_true, Bool.and_false]; rfl

/-- The value that a v register gives. -/
theorem State.ReadsV.value {s : State} {v : VIx} {x : VWord} {fl : Flags} (h : s.ReadsV v x fl) : s.vv v = x := by
  obtain ⟨h1, h2, h3, -⟩ | ⟨h2, h3, -⟩ := h
  · simp only [State.vv, h2, h3]; rfl
  · simp only [State.vv, h2, h3]; rfl

/-- A v register that can take a result lets the pair go. -/
theorem State.TakesV.gate {s : State} {v : VIx} (h : s.TakesV v) : s.writeGateV v = .ok := by
  have h' : s.ctx.v[v].pending = false := h
  simp only [State.writeGateV, h']; rfl

end Sys2Proof.Machine
end

