-- ==== Sys2Proof/Laws/Object.lean ====
section
/-! SUPPORT. A change of an object at its home: the activation that a sweep engine has under way stays as it is. -/

namespace Sys2Proof.Machine

/-- A store changes memory and poison only. -/
@[simp] theorem State.store_act (s : State) (key n v : Nat) : (s.store key n v).act = s.act := by
  unfold State.store
  split <;> rfl

@[simp] theorem State.putObj_act (s : State) (key : Nat) (o : SObj) : (s.putObj key o).act = s.act := by
  simp [State.putObj]

@[simp] theorem State.pokeIdle_act (s : State) (key : Nat) : (s.pokeIdle key).act = s.act := rfl

@[simp] theorem State.keepStatus_act (s : State) (n : Nat) (i : Fin 16) (st code : Nat) : (s.keepStatus n i st code).act = s.act := by
  simp only [State.keepStatus]
  split <;> simp

/-- A waiting task that wakes. -/
@[simp] theorem State.wakeTask_act (s : State) (tid : BitVec 48) (st code : Nat) : (s.wakeTask tid st code).act = s.act := by
  unfold State.wakeTask
  repeat' split
  all_goals simp

@[simp] theorem State.wakeOne_act (s : State) (w : Waiter) (st code : Nat) : (s.wakeOne w st code).act = s.act := by
  unfold State.wakeOne
  split <;> simp

@[simp] theorem State.wakeAll_act (s : State) (o : SObj) (l : List Waiter) : (s.wakeAll o l).act = s.act := by
  induction l generalizing s with
  | nil => rfl
  | cons w l ih =>
    unfold State.wakeAll
    split <;> simp [ih]

@[simp] theorem State.wakeCheck_act (s : State) (key : Nat) : (s.wakeCheck key).act = s.act := by
  unfold State.wakeCheck State.countOut
  simp only [State.pokeIdle_act]
  split <;> simp

/-- A region that completes, with the parents that complete after it. -/
@[simp] theorem State.completeRegion_act (n : Nat) (s : State) (rcb : Word) : (s.completeRegion n rcb).act = s.act := by
  induction n generalizing s rcb with
  | zero => rfl
  | succ n ih =>
    unfold State.completeRegion
    repeat' split
    all_goals first | rfl | simp [ih, State.finishLaunch, State.freeRegion]

@[simp] theorem State.changeObj_act (s : State) (key : Nat) (o : SObj) : (s.changeObj key o).act = s.act := by
  simp only [State.changeObj]
  split <;> simp

end Sys2Proof.Machine
end

