-- ==== Sys2Proof/Laws/PerInstr.lean ====
section
/-! SUPPORT. One law per instruction: its words fit their 32 bits (R41, R52, R54, R238). -/

namespace Sys2Proof.Laws.Fits

/-- The words that an instruction encodes to are 32-bit words. -/
def Statement (i : Instr) : Prop := ∀ p, encode i = some p → p.1 < 2 ^ 32 ∧ p.2 < 2 ^ 32

theorem bool_lt (b : Bool) : b.toNat < 2 := by cases b <;> decide
theorem size_lt (x : Size) : x.code < 4 := by cases x <;> decide
theorem asize_lt (x : ASize) : x.code < 4 := by cases x <;> decide
theorem esize_lt (x : ESize) : x.code < 3 := by cases x <;> decide
theorem scope_lt (x : Scope) : x.code < 5 := by cases x <;> decide
theorem aorder_lt (x : AOrder) : x.code < 4 := by cases x <;> decide
theorem forder_lt (x : FOrder) : x.code < 4 := by cases x <;> decide
theorem objkind_lt (x : ObjKind) : x.code < 6 := by cases x <;> decide
theorem redop_lt (x : RedOp) : x.code < 4 := by cases x <;> decide
theorem icond_lt (x : ICond) : x.code < 6 := by cases x <;> decide
theorem fcond_lt (x : FCond) : x.code < 5 := by cases x <;> decide
theorem fcvt_lt (x : FCvt) : x.code < 6 := by cases x <;> decide
theorem ffmt_lt (x : FFmt) : x.code < 3 := by cases x <;> decide
theorem sgnmode_lt (x : SgnMode) : x.code < 3 := by cases x <;> decide
theorem vcvt_lt (x : VCvt) : x.code < 14 := by cases x <;> decide
theorem ccond_lt (x : CCond) : x.code < 8 := by cases x <;> decide
theorem jcond_lt (x : JCond) : x.code < 3 := by cases x <;> decide
theorem getsel_lt (x : GetSel) : x.code < 16 := by cases x with
  | e => decide
  | aux => decide
  | p n => revert n; decide
theorem putsel_lt (x : PutSel) : x.code < 2 := by cases x <;> decide
theorem creg_lt (x : CReg) : x.code < 128 := by cases x with
  | tline n => revert n; decide
  | _ => decide
theorem vicond_lt (x : VICond) : x.code < 6 := by cases x <;> decide
theorem vfcond_lt (x : VFCond) : x.code < 7 := by cases x <;> decide
theorem lane_lt (k : Lane) : k.code.1 < 4 ∧ k.code.2 < 2 := by cases k <;> decide
theorem esz_lt (c : VCvt) : c.esz < 4 := by cases c <;> decide
theorem op2_lt (o : Op2) : packOp2 o < 2 ^ 22 := by cases o <;> simp only [packOp2] <;> omega

theorem cnop : Statement .cnop := by
  intro pr h
  injection h with h
  subst h
  constructor <;> dsimp only [packCS, packCM, packCA, packStrided, packAR, packAI, packAV, packLane, packAX, packAT, packAF, packX, lone, Bool.toNat_true, Bool.toNat_false] <;> omega
theorem br (off : BitVec 19) : Statement (.br off) := by
  intro pr h
  injection h with h
  subst h
  constructor <;> dsimp only [packCS, packCM, packCA, packStrided, packAR, packAI, packAV, packLane, packAX, packAT, packAF, packX, lone, Bool.toNat_true, Bool.toNat_false] <;> omega
theorem brWide (lit : BitVec 32) : Statement (.brWide lit) := by
  intro pr h
  injection h with h
  subst h
  constructor <;> dsimp only [packCS, packCM, packCA, packStrided, packAR, packAI, packAV, packLane, packAX, packAT, packAF, packX, lone, Bool.toNat_true, Bool.toNat_false] <;> omega
theorem call (off : BitVec 19) : Statement (.call off) := by
  intro pr h
  injection h with h
  subst h
  constructor <;> dsimp only [packCS, packCM, packCA, packStrided, packAR, packAI, packAV, packLane, packAX, packAT, packAF, packX, lone, Bool.toNat_true, Bool.toNat_false] <;> omega
theorem callWide (lit : BitVec 32) : Statement (.callWide lit) := by
  intro pr h
  injection h with h
  subst h
  constructor <;> dsimp only [packCS, packCM, packCA, packStrided, packAR, packAI, packAV, packLane, packAX, packAT, packAF, packX, lone, Bool.toNat_true, Bool.toNat_false] <;> omega
theorem jmp (a : GIx) : Statement (.jmp a) := by
  intro pr h
  injection h with h
  subst h
  constructor <;> dsimp only [packCS, packCM, packCA, packStrided, packAR, packAI, packAV, packLane, packAX, packAT, packAF, packX, lone, Bool.toNat_true, Bool.toNat_false] <;> omega
theorem callr (a : GIx) : Statement (.callr a) := by
  intro pr h
  injection h with h
  subst h
  constructor <;> dsimp only [packCS, packCM, packCA, packStrided, packAR, packAI, packAV, packLane, packAX, packAT, packAF, packX, lone, Bool.toNat_true, Bool.toNat_false] <;> omega
theorem ret : Statement .ret := by
  intro pr h
  injection h with h
  subst h
  constructor <;> dsimp only [packCS, packCM, packCA, packStrided, packAR, packAI, packAV, packLane, packAX, packAT, packAF, packX, lone, Bool.toNat_true, Bool.toNat_false] <;> omega
theorem halt : Statement .halt := by
  intro pr h
  injection h with h
  subst h
  constructor <;> dsimp only [packCS, packCM, packCA, packStrided, packAR, packAI, packAV, packLane, packAX, packAT, packAF, packX, lone, Bool.toNat_true, Bool.toNat_false] <;> omega
theorem trapi (code : BitVec 8) : Statement (.trapi code) := by
  intro pr h
  injection h with h
  subst h
  constructor <;> dsimp only [packCS, packCM, packCA, packStrided, packAR, packAI, packAV, packLane, packAX, packAT, packAF, packX, lone, Bool.toNat_true, Bool.toNat_false] <;> omega
theorem syscall (code : BitVec 8) : Statement (.syscall code) := by
  intro pr h
  injection h with h
  subst h
  constructor <;> dsimp only [packCS, packCM, packCA, packStrided, packAR, packAI, packAV, packLane, packAX, packAT, packAF, packX, lone, Bool.toNat_true, Bool.toNat_false] <;> omega
theorem movl (d : GIx) (lit : BitVec 32) : Statement (.movl d lit) := by
  intro pr h
  injection h with h
  subst h
  constructor <;> dsimp only [packCS, packCM, packCA, packStrided, packAR, packAI, packAV, packLane, packAX, packAT, packAF, packX, lone, Bool.toNat_true, Bool.toNat_false] <;> omega
theorem movh (d : GIx) (lit : BitVec 32) : Statement (.movh d lit) := by
  intro pr h
  injection h with h
  subst h
  constructor <;> dsimp only [packCS, packCM, packCA, packStrided, packAR, packAI, packAV, packLane, packAX, packAT, packAF, packX, lone, Bool.toNat_true, Bool.toNat_false] <;> omega
theorem ld (sz : Size) (x : Bool) (d : GIx) (base : GIx) (off : BitVec 8) : Statement (.ld sz x d base off) := by
  intro pr h
  have := size_lt sz
  have := bool_lt x
  injection h with h
  subst h
  constructor <;> dsimp only [packCS, packCM, packCA, packStrided, packAR, packAI, packAV, packLane, packAX, packAT, packAF, packX, lone, Bool.toNat_true, Bool.toNat_false] <;> omega
theorem ldWide (sz : Size) (x : Bool) (d : GIx) (base : GIx) (lit : BitVec 32) : Statement (.ldWide sz x d base lit) := by
  intro pr h
  have := size_lt sz
  have := bool_lt x
  injection h with h
  subst h
  constructor <;> dsimp only [packCS, packCM, packCA, packStrided, packAR, packAI, packAV, packLane, packAX, packAT, packAF, packX, lone, Bool.toNat_true, Bool.toNat_false] <;> omega
theorem lds (sz : Size) (x : Bool) (d : GIx) (base : GIx) (off : BitVec 8) : Statement (.lds sz x d base off) := by
  intro pr h
  have := size_lt sz
  have := bool_lt x
  injection h with h
  subst h
  constructor <;> dsimp only [packCS, packCM, packCA, packStrided, packAR, packAI, packAV, packLane, packAX, packAT, packAF, packX, lone, Bool.toNat_true, Bool.toNat_false] <;> omega
theorem ldsWide (sz : Size) (x : Bool) (d : GIx) (base : GIx) (lit : BitVec 32) : Statement (.ldsWide sz x d base lit) := by
  intro pr h
  have := size_lt sz
  have := bool_lt x
  injection h with h
  subst h
  constructor <;> dsimp only [packCS, packCM, packCA, packStrided, packAR, packAI, packAV, packLane, packAX, packAT, packAF, packX, lone, Bool.toNat_true, Bool.toNat_false] <;> omega
theorem st (sz : Size) (x : Bool) (d : GIx) (base : GIx) (off : BitVec 8) : Statement (.st sz x d base off) := by
  intro pr h
  have := size_lt sz
  have := bool_lt x
  injection h with h
  subst h
  constructor <;> dsimp only [packCS, packCM, packCA, packStrided, packAR, packAI, packAV, packLane, packAX, packAT, packAF, packX, lone, Bool.toNat_true, Bool.toNat_false] <;> omega
theorem stWide (sz : Size) (x : Bool) (d : GIx) (base : GIx) (lit : BitVec 32) : Statement (.stWide sz x d base lit) := by
  intro pr h
  have := size_lt sz
  have := bool_lt x
  injection h with h
  subst h
  constructor <;> dsimp only [packCS, packCM, packCA, packStrided, packAR, packAI, packAV, packLane, packAX, packAT, packAF, packX, lone, Bool.toNat_true, Bool.toNat_false] <;> omega
theorem ldv (x : Bool) (d : VIx) (base : GIx) (off : BitVec 8) : Statement (.ldv x d base off) := by
  intro pr h
  have := bool_lt x
  injection h with h
  subst h
  constructor <;> dsimp only [packCS, packCM, packCA, packStrided, packAR, packAI, packAV, packLane, packAX, packAT, packAF, packX, lone, Bool.toNat_true, Bool.toNat_false] <;> omega
theorem ldvWide (x : Bool) (d : VIx) (base : GIx) (lit : BitVec 32) : Statement (.ldvWide x d base lit) := by
  intro pr h
  have := bool_lt x
  injection h with h
  subst h
  constructor <;> dsimp only [packCS, packCM, packCA, packStrided, packAR, packAI, packAV, packLane, packAX, packAT, packAF, packX, lone, Bool.toNat_true, Bool.toNat_false] <;> omega
theorem stv (x : Bool) (d : VIx) (base : GIx) (off : BitVec 8) : Statement (.stv x d base off) := by
  intro pr h
  have := bool_lt x
  injection h with h
  subst h
  constructor <;> dsimp only [packCS, packCM, packCA, packStrided, packAR, packAI, packAV, packLane, packAX, packAT, packAF, packX, lone, Bool.toNat_true, Bool.toNat_false] <;> omega
theorem stvWide (x : Bool) (d : VIx) (base : GIx) (lit : BitVec 32) : Statement (.stvWide x d base lit) := by
  intro pr h
  have := bool_lt x
  injection h with h
  subst h
  constructor <;> dsimp only [packCS, packCM, packCA, packStrided, packAR, packAI, packAV, packLane, packAX, packAT, packAF, packX, lone, Bool.toNat_true, Bool.toNat_false] <;> omega
theorem ldvs (e : ESize) (x : Bool) (d : VIx) (a : GIx) (b : GIx) : Statement (.ldvs e x d a b) := by
  intro pr h
  have := esize_lt e
  have := bool_lt x
  injection h with h
  subst h
  constructor <;> dsimp only [packCS, packCM, packCA, packStrided, packAR, packAI, packAV, packLane, packAX, packAT, packAF, packX, lone, Bool.toNat_true, Bool.toNat_false] <;> omega
theorem stvs (e : ESize) (x : Bool) (d : VIx) (a : GIx) (b : GIx) : Statement (.stvs e x d a b) := by
  intro pr h
  have := esize_lt e
  have := bool_lt x
  injection h with h
  subst h
  constructor <;> dsimp only [packCS, packCM, packCA, packStrided, packAR, packAI, packAV, packLane, packAX, packAT, packAF, packX, lone, Bool.toNat_true, Bool.toNat_false] <;> omega
theorem vgath (e : ESize) (x : Bool) (d : VIx) (a : GIx) (b : VIx) : Statement (.vgath e x d a b) := by
  intro pr h
  have := esize_lt e
  have := bool_lt x
  injection h with h
  subst h
  constructor <;> dsimp only [packCS, packCM, packCA, packStrided, packAR, packAI, packAV, packLane, packAX, packAT, packAF, packX, lone, Bool.toNat_true, Bool.toNat_false] <;> omega
theorem vscat (e : ESize) (x : Bool) (d : VIx) (a : GIx) (b : VIx) : Statement (.vscat e x d a b) := by
  intro pr h
  have := esize_lt e
  have := bool_lt x
  injection h with h
  subst h
  constructor <;> dsimp only [packCS, packCM, packCA, packStrided, packAR, packAI, packAV, packLane, packAX, packAT, packAF, packX, lone, Bool.toNat_true, Bool.toNat_false] <;> omega
theorem aadd (sz : ASize) (sc : Scope) (o : AOrder) (d : GIx) (addr : GIx) (v : GIx) : Statement (.aadd sz sc o d addr v) := by
  intro pr h
  have := asize_lt sz
  have := scope_lt sc
  have := aorder_lt o
  injection h with h
  subst h
  constructor <;> dsimp only [packCS, packCM, packCA, packStrided, packAR, packAI, packAV, packLane, packAX, packAT, packAF, packX, lone, Bool.toNat_true, Bool.toNat_false] <;> omega
theorem aand (sz : ASize) (sc : Scope) (o : AOrder) (d : GIx) (addr : GIx) (v : GIx) : Statement (.aand sz sc o d addr v) := by
  intro pr h
  have := asize_lt sz
  have := scope_lt sc
  have := aorder_lt o
  injection h with h
  subst h
  constructor <;> dsimp only [packCS, packCM, packCA, packStrided, packAR, packAI, packAV, packLane, packAX, packAT, packAF, packX, lone, Bool.toNat_true, Bool.toNat_false] <;> omega
theorem aor (sz : ASize) (sc : Scope) (o : AOrder) (d : GIx) (addr : GIx) (v : GIx) : Statement (.aor sz sc o d addr v) := by
  intro pr h
  have := asize_lt sz
  have := scope_lt sc
  have := aorder_lt o
  injection h with h
  subst h
  constructor <;> dsimp only [packCS, packCM, packCA, packStrided, packAR, packAI, packAV, packLane, packAX, packAT, packAF, packX, lone, Bool.toNat_true, Bool.toNat_false] <;> omega
theorem axor (sz : ASize) (sc : Scope) (o : AOrder) (d : GIx) (addr : GIx) (v : GIx) : Statement (.axor sz sc o d addr v) := by
  intro pr h
  have := asize_lt sz
  have := scope_lt sc
  have := aorder_lt o
  injection h with h
  subst h
  constructor <;> dsimp only [packCS, packCM, packCA, packStrided, packAR, packAI, packAV, packLane, packAX, packAT, packAF, packX, lone, Bool.toNat_true, Bool.toNat_false] <;> omega
theorem amin (sz : ASize) (sc : Scope) (o : AOrder) (d : GIx) (addr : GIx) (v : GIx) : Statement (.amin sz sc o d addr v) := by
  intro pr h
  have := asize_lt sz
  have := scope_lt sc
  have := aorder_lt o
  injection h with h
  subst h
  constructor <;> dsimp only [packCS, packCM, packCA, packStrided, packAR, packAI, packAV, packLane, packAX, packAT, packAF, packX, lone, Bool.toNat_true, Bool.toNat_false] <;> omega
theorem amax (sz : ASize) (sc : Scope) (o : AOrder) (d : GIx) (addr : GIx) (v : GIx) : Statement (.amax sz sc o d addr v) := by
  intro pr h
  have := asize_lt sz
  have := scope_lt sc
  have := aorder_lt o
  injection h with h
  subst h
  constructor <;> dsimp only [packCS, packCM, packCA, packStrided, packAR, packAI, packAV, packLane, packAX, packAT, packAF, packX, lone, Bool.toNat_true, Bool.toNat_false] <;> omega
theorem aswp (sz : ASize) (sc : Scope) (o : AOrder) (d : GIx) (addr : GIx) (v : GIx) : Statement (.aswp sz sc o d addr v) := by
  intro pr h
  have := asize_lt sz
  have := scope_lt sc
  have := aorder_lt o
  injection h with h
  subst h
  constructor <;> dsimp only [packCS, packCM, packCA, packStrided, packAR, packAI, packAV, packLane, packAX, packAT, packAF, packX, lone, Bool.toNat_true, Bool.toNat_false] <;> omega
theorem acas (sz : ASize) (sc : Scope) (o : AOrder) (d : GIx) (addr : GIx) (v : GIx) : Statement (.acas sz sc o d addr v) := by
  intro pr h
  have := asize_lt sz
  have := scope_lt sc
  have := aorder_lt o
  injection h with h
  subst h
  constructor <;> dsimp only [packCS, packCM, packCA, packStrided, packAR, packAI, packAV, packLane, packAX, packAT, packAF, packX, lone, Bool.toNat_true, Bool.toNat_false] <;> omega
theorem afadd (sc : Scope) (o : AOrder) (d : GIx) (addr : GIx) (v : GIx) : Statement (.afadd sc o d addr v) := by
  intro pr h
  have := scope_lt sc
  have := aorder_lt o
  injection h with h
  subst h
  constructor <;> dsimp only [packCS, packCM, packCA, packStrided, packAR, packAI, packAV, packLane, packAX, packAT, packAF, packX, lone, Bool.toNat_true, Bool.toNat_false] <;> omega
theorem fence (sc : Scope) (o : FOrder) : Statement (.fence sc o) := by
  intro pr h
  have := scope_lt sc
  have := forder_lt o
  injection h with h
  subst h
  constructor <;> dsimp only [packCS, packCM, packCA, packStrided, packAR, packAI, packAV, packLane, packAX, packAT, packAF, packX, lone, Bool.toNat_true, Bool.toNat_false] <;> omega
theorem sbind (d : GIx) (a : GIx) : Statement (.sbind d a) := by
  intro pr h
  injection h with h
  subst h
  constructor <;> dsimp only [packCS, packCM, packCA, packStrided, packAR, packAI, packAV, packLane, packAX, packAT, packAF, packX, lone, Bool.toNat_true, Bool.toNat_false] <;> omega
theorem sunbind (d : GIx) : Statement (.sunbind d) := by
  intro pr h
  injection h with h
  subst h
  constructor <;> dsimp only [packCS, packCM, packCA, packStrided, packAR, packAI, packAV, packLane, packAX, packAT, packAF, packX, lone, Bool.toNat_true, Bool.toNat_false] <;> omega
theorem sstat (d : GIx) (a : GIx) : Statement (.sstat d a) := by
  intro pr h
  injection h with h
  subst h
  constructor <;> dsimp only [packCS, packCM, packCA, packStrided, packAR, packAI, packAV, packLane, packAX, packAT, packAF, packX, lone, Bool.toNat_true, Bool.toNat_false] <;> omega
theorem tld (td : TIx) (a : GIx) (b : GIx) : Statement (.tld td a b) := by
  intro pr h
  injection h with h
  subst h
  constructor <;> dsimp only [packCS, packCM, packCA, packStrided, packAR, packAI, packAV, packLane, packAX, packAT, packAF, packX, lone, Bool.toNat_true, Bool.toNat_false] <;> omega
theorem tldBd (td : TIx) (a : GIx) (b : GIx) : Statement (.tldBd td a b) := by
  intro pr h
  injection h with h
  subst h
  constructor <;> dsimp only [packCS, packCM, packCA, packStrided, packAR, packAI, packAV, packLane, packAX, packAT, packAF, packX, lone, Bool.toNat_true, Bool.toNat_false] <;> omega
theorem tst (td : TIx) (a : GIx) (b : GIx) : Statement (.tst td a b) := by
  intro pr h
  injection h with h
  subst h
  constructor <;> dsimp only [packCS, packCM, packCA, packStrided, packAR, packAI, packAV, packLane, packAX, packAT, packAF, packX, lone, Bool.toNat_true, Bool.toNat_false] <;> omega
theorem tstBd (td : TIx) (a : GIx) (b : GIx) : Statement (.tstBd td a b) := by
  intro pr h
  injection h with h
  subst h
  constructor <;> dsimp only [packCS, packCM, packCA, packStrided, packAR, packAI, packAV, packLane, packAX, packAT, packAF, packX, lone, Bool.toNat_true, Bool.toNat_false] <;> omega
theorem tplane (p : Fin 8) (d : GIx) (a : GIx) (b : GIx) : Statement (.tplane p d a b) := by
  intro pr h
  injection h with h
  subst h
  constructor <;> dsimp only [packCS, packCM, packCA, packStrided, packAR, packAI, packAV, packLane, packAX, packAT, packAF, packX, lone, Bool.toNat_true, Bool.toNat_false] <;> omega
theorem regput (a : GIx) (b : GIx) : Statement (.regput a b) := by
  intro pr h
  injection h with h
  subst h
  constructor <;> dsimp only [packCS, packCM, packCA, packStrided, packAR, packAI, packAV, packLane, packAX, packAT, packAF, packX, lone, Bool.toNat_true, Bool.toNat_false] <;> omega
theorem emptyr (d : GIx) : Statement (.emptyr d) := by
  intro pr h
  injection h with h
  subst h
  constructor <;> dsimp only [packCS, packCM, packCA, packStrided, packAR, packAI, packAV, packLane, packAX, packAT, packAF, packX, lone, Bool.toNat_true, Bool.toNat_false] <;> omega
theorem obnew (k : ObjKind) (d : GIx) (a : GIx) (b : GIx) : Statement (.obnew k d a b) := by
  intro pr h
  have := objkind_lt k
  injection h with h
  subst h
  constructor <;> dsimp only [packCS, packCM, packCA, packStrided, packAR, packAI, packAV, packLane, packAX, packAT, packAF, packX, lone, Bool.toNat_true, Bool.toNat_false] <;> omega
theorem oblige (a : GIx) : Statement (.oblige a) := by
  intro pr h
  injection h with h
  subst h
  constructor <;> dsimp only [packCS, packCM, packCA, packStrided, packAR, packAI, packAV, packLane, packAX, packAT, packAF, packX, lone, Bool.toNat_true, Bool.toNat_false] <;> omega
theorem signal (a : GIx) (b : GIx) : Statement (.signal a b) := by
  intro pr h
  injection h with h
  subst h
  constructor <;> dsimp only [packCS, packCM, packCA, packStrided, packAR, packAI, packAV, packLane, packAX, packAT, packAF, packX, lone, Bool.toNat_true, Bool.toNat_false] <;> omega
theorem arrive (a : GIx) : Statement (.arrive a) := by
  intro pr h
  injection h with h
  subst h
  constructor <;> dsimp only [packCS, packCM, packCA, packStrided, packAR, packAI, packAV, packLane, packAX, packAT, packAF, packX, lone, Bool.toNat_true, Bool.toNat_false] <;> omega
theorem wait (d : GIx) (a : GIx) (b : GIx) : Statement (.wait d a b) := by
  intro pr h
  injection h with h
  subst h
  constructor <;> dsimp only [packCS, packCM, packCA, packStrided, packAR, packAI, packAV, packLane, packAX, packAT, packAF, packX, lone, Bool.toNat_true, Bool.toNat_false] <;> omega
theorem waitSh (d : GIx) (a : GIx) (b : GIx) : Statement (.waitSh d a b) := by
  intro pr h
  injection h with h
  subst h
  constructor <;> dsimp only [packCS, packCM, packCA, packStrided, packAR, packAI, packAV, packLane, packAX, packAT, packAF, packX, lone, Bool.toNat_true, Bool.toNat_false] <;> omega
theorem waita (d : GIx) (a : GIx) : Statement (.waita d a) := by
  intro pr h
  injection h with h
  subst h
  constructor <;> dsimp only [packCS, packCM, packCA, packStrided, packAR, packAI, packAV, packLane, packAX, packAT, packAF, packX, lone, Bool.toNat_true, Bool.toNat_false] <;> omega
theorem xfer (a : GIx) (b : GIx) : Statement (.xfer a b) := by
  intro pr h
  injection h with h
  subst h
  constructor <;> dsimp only [packCS, packCM, packCA, packStrided, packAR, packAI, packAV, packLane, packAX, packAT, packAF, packX, lone, Bool.toNat_true, Bool.toNat_false] <;> omega
theorem obqry (d : GIx) (a : GIx) : Statement (.obqry d a) := by
  intro pr h
  injection h with h
  subst h
  constructor <;> dsimp only [packCS, packCM, packCA, packStrided, packAR, packAI, packAV, packLane, packAX, packAT, packAF, packX, lone, Bool.toNat_true, Bool.toNat_false] <;> omega
theorem rnkwin (d : GIx) (b : GIx) : Statement (.rnkwin d b) := by
  intro pr h
  injection h with h
  subst h
  constructor <;> dsimp only [packCS, packCM, packCA, packStrided, packAR, packAI, packAV, packLane, packAX, packAT, packAF, packX, lone, Bool.toNat_true, Bool.toNat_false] <;> omega
theorem poison (a : GIx) (code : BitVec 8) : Statement (.poison a code) := by
  intro pr h
  injection h with h
  subst h
  constructor <;> dsimp only [packCS, packCM, packCA, packStrided, packAR, packAI, packAV, packLane, packAX, packAT, packAF, packX, lone, Bool.toNat_true, Bool.toNat_false] <;> omega
theorem tlwait (e : Fin 4) (b : GIx) : Statement (.tlwait e b) := by
  intro pr h
  injection h with h
  subst h
  constructor <;> dsimp only [packCS, packCM, packCA, packStrided, packAR, packAI, packAV, packLane, packAX, packAT, packAF, packX, lone, Bool.toNat_true, Bool.toNat_false] <;> omega
theorem cpyqWt (a : GIx) : Statement (.cpyqWt a) := by
  intro pr h
  injection h with h
  subst h
  constructor <;> dsimp only [packCS, packCM, packCA, packStrided, packAR, packAI, packAV, packLane, packAX, packAT, packAF, packX, lone, Bool.toNat_true, Bool.toNat_false] <;> omega
theorem cpyqBz (p : PIx) (a : GIx) : Statement (.cpyqBz p a) := by
  intro pr h
  injection h with h
  subst h
  constructor <;> dsimp only [packCS, packCM, packCA, packStrided, packAR, packAI, packAV, packLane, packAX, packAT, packAF, packX, lone, Bool.toNat_true, Bool.toNat_false] <;> omega
theorem wfm (d : GIx) (b : GIx) : Statement (.wfm d b) := by
  intro pr h
  injection h with h
  subst h
  constructor <;> dsimp only [packCS, packCM, packCA, packStrided, packAR, packAI, packAV, packLane, packAX, packAT, packAF, packX, lone, Bool.toNat_true, Bool.toNat_false] <;> omega
theorem mbrd (d : GIx) (b : GIx) : Statement (.mbrd d b) := by
  intro pr h
  injection h with h
  subst h
  constructor <;> dsimp only [packCS, packCM, packCA, packStrided, packAR, packAI, packAV, packLane, packAX, packAT, packAF, packX, lone, Bool.toNat_true, Bool.toNat_false] <;> omega
theorem send (n : Fin 8) (a : GIx) (b : GIx) : Statement (.send n a b) := by
  intro pr h
  injection h with h
  subst h
  constructor <;> dsimp only [packCS, packCM, packCA, packStrided, packAR, packAI, packAV, packLane, packAX, packAT, packAF, packX, lone, Bool.toNat_true, Bool.toNat_false] <;> omega
theorem sendOb (n : Fin 8) (d : GIx) (a : GIx) (b : GIx) : Statement (.sendOb n d a b) := by
  intro pr h
  injection h with h
  subst h
  constructor <;> dsimp only [packCS, packCM, packCA, packStrided, packAR, packAI, packAV, packLane, packAX, packAT, packAF, packX, lone, Bool.toNat_true, Bool.toNat_false] <;> omega
theorem migr (a : GIx) : Statement (.migr a) := by
  intro pr h
  injection h with h
  subst h
  constructor <;> dsimp only [packCS, packCM, packCA, packStrided, packAR, packAI, packAV, packLane, packAX, packAT, packAF, packX, lone, Bool.toNat_true, Bool.toNat_false] <;> omega
theorem shelve (d : GIx) (a : GIx) (b : GIx) : Statement (.shelve d a b) := by
  intro pr h
  injection h with h
  subst h
  constructor <;> dsimp only [packCS, packCM, packCA, packStrided, packAR, packAI, packAV, packLane, packAX, packAT, packAF, packX, lone, Bool.toNat_true, Bool.toNat_false] <;> omega
theorem wcopen (d : GIx) (a : GIx) (b : GIx) : Statement (.wcopen d a b) := by
  intro pr h
  injection h with h
  subst h
  constructor <;> dsimp only [packCS, packCM, packCA, packStrided, packAR, packAI, packAV, packLane, packAX, packAT, packAF, packX, lone, Bool.toNat_true, Bool.toNat_false] <;> omega
theorem wcsel (a : GIx) : Statement (.wcsel a) := by
  intro pr h
  injection h with h
  subst h
  constructor <;> dsimp only [packCS, packCM, packCA, packStrided, packAR, packAI, packAV, packLane, packAX, packAT, packAF, packX, lone, Bool.toNat_true, Bool.toNat_false] <;> omega
theorem wcrel (d : GIx) (a : GIx) : Statement (.wcrel d a) := by
  intro pr h
  injection h with h
  subst h
  constructor <;> dsimp only [packCS, packCM, packCA, packStrided, packAR, packAI, packAV, packLane, packAX, packAT, packAF, packX, lone, Bool.toNat_true, Bool.toNat_false] <;> omega
theorem wcrelRp (d : GIx) (a : GIx) (b : GIx) : Statement (.wcrelRp d a b) := by
  intro pr h
  injection h with h
  subst h
  constructor <;> dsimp only [packCS, packCM, packCA, packStrided, packAR, packAI, packAV, packLane, packAX, packAT, packAF, packX, lone, Bool.toNat_true, Bool.toNat_false] <;> omega
theorem wcclose (a : GIx) : Statement (.wcclose a) := by
  intro pr h
  injection h with h
  subst h
  constructor <;> dsimp only [packCS, packCM, packCA, packStrided, packAR, packAI, packAV, packLane, packAX, packAT, packAF, packX, lone, Bool.toNat_true, Bool.toNat_false] <;> omega
theorem mcst (n : Fin 4) (a : GIx) (b : GIx) : Statement (.mcst n a b) := by
  intro pr h
  injection h with h
  subst h
  constructor <;> dsimp only [packCS, packCM, packCA, packStrided, packAR, packAI, packAV, packLane, packAX, packAT, packAF, packX, lone, Bool.toNat_true, Bool.toNat_false] <;> omega
theorem mcrel (d : GIx) (a : GIx) : Statement (.mcrel d a) := by
  intro pr h
  injection h with h
  subst h
  constructor <;> dsimp only [packCS, packCM, packCA, packStrided, packAR, packAI, packAV, packLane, packAX, packAT, packAF, packX, lone, Bool.toNat_true, Bool.toNat_false] <;> omega
theorem mcrelRp (d : GIx) (a : GIx) (b : GIx) : Statement (.mcrelRp d a b) := by
  intro pr h
  injection h with h
  subst h
  constructor <;> dsimp only [packCS, packCM, packCA, packStrided, packAR, packAI, packAV, packLane, packAX, packAT, packAF, packX, lone, Bool.toNat_true, Bool.toNat_false] <;> omega
theorem redput (op : RedOp) (ign : Bool) (d : GIx) (a : GIx) (b : GIx) : Statement (.redput op ign d a b) := by
  intro pr h
  have := redop_lt op
  have := bool_lt ign
  injection h with h
  subst h
  constructor <;> dsimp only [packCS, packCM, packCA, packStrided, packAR, packAI, packAV, packLane, packAX, packAT, packAF, packX, lone, Bool.toNat_true, Bool.toNat_false] <;> omega
theorem iordWt (a : GIx) : Statement (.iordWt a) := by
  intro pr h
  injection h with h
  subst h
  constructor <;> dsimp only [packCS, packCM, packCA, packStrided, packAR, packAI, packAV, packLane, packAX, packAT, packAF, packX, lone, Bool.toNat_true, Bool.toNat_false] <;> omega
theorem iordBz (p : PIx) (a : GIx) : Statement (.iordBz p a) := by
  intro pr h
  injection h with h
  subst h
  constructor <;> dsimp only [packCS, packCM, packCA, packStrided, packAR, packAI, packAV, packLane, packAX, packAT, packAF, packX, lone, Bool.toNat_true, Bool.toNat_false] <;> omega
theorem scnext (q : PIx) (d : GIx) : Statement (.scnext q d) := by
  intro pr h
  injection h with h
  subst h
  constructor <;> dsimp only [packCS, packCM, packCA, packStrided, packAR, packAI, packAV, packLane, packAX, packAT, packAF, packX, lone, Bool.toNat_true, Bool.toNat_false] <;> omega
theorem swdecl (d : GIx) (a : GIx) : Statement (.swdecl d a) := by
  intro pr h
  injection h with h
  subst h
  constructor <;> dsimp only [packCS, packCM, packCA, packStrided, packAR, packAI, packAV, packLane, packAX, packAT, packAF, packX, lone, Bool.toNat_true, Bool.toNat_false] <;> omega
theorem swbind (d : GIx) (a : GIx) (b : GIx) : Statement (.swbind d a b) := by
  intro pr h
  injection h with h
  subst h
  constructor <;> dsimp only [packCS, packCM, packCA, packStrided, packAR, packAI, packAV, packLane, packAX, packAT, packAF, packX, lone, Bool.toNat_true, Bool.toNat_false] <;> omega
theorem swrun (a : GIx) (b : GIx) : Statement (.swrun a b) := by
  intro pr h
  injection h with h
  subst h
  constructor <;> dsimp only [packCS, packCM, packCA, packStrided, packAR, packAI, packAV, packLane, packAX, packAT, packAF, packX, lone, Bool.toNat_true, Bool.toNat_false] <;> omega
theorem swwake (a : GIx) (b : GIx) : Statement (.swwake a b) := by
  intro pr h
  injection h with h
  subst h
  constructor <;> dsimp only [packCS, packCM, packCA, packStrided, packAR, packAI, packAV, packLane, packAX, packAT, packAF, packX, lone, Bool.toNat_true, Bool.toNat_false] <;> omega
theorem swstat (d : GIx) (a : GIx) : Statement (.swstat d a) := by
  intro pr h
  injection h with h
  subst h
  constructor <;> dsimp only [packCS, packCM, packCA, packStrided, packAR, packAI, packAV, packLane, packAX, packAT, packAF, packX, lone, Bool.toNat_true, Bool.toNat_false] <;> omega
theorem crd (d : GIx) (r : CReg) : Statement (.crd d r) := by
  intro pr h
  have := creg_lt r
  injection h with h
  subst h
  constructor <;> dsimp only [packCS, packCM, packCA, packStrided, packAR, packAI, packAV, packLane, packAX, packAT, packAF, packX, lone, Bool.toNat_true, Bool.toNat_false] <;> omega
theorem cwr (d : GIx) (r : CReg) : Statement (.cwr d r) := by
  intro pr h
  have := creg_lt r
  injection h with h
  subst h
  constructor <;> dsimp only [packCS, packCM, packCA, packStrided, packAR, packAI, packAV, packLane, packAX, packAT, packAF, packX, lone, Bool.toNat_true, Bool.toNat_false] <;> omega
theorem ctxrd (d : GIx) (a : GIx) (b : GIx) : Statement (.ctxrd d a b) := by
  intro pr h
  injection h with h
  subst h
  constructor <;> dsimp only [packCS, packCM, packCA, packStrided, packAR, packAI, packAV, packLane, packAX, packAT, packAF, packX, lone, Bool.toNat_true, Bool.toNat_false] <;> omega
theorem ctxwr (d : GIx) (a : GIx) (b : GIx) : Statement (.ctxwr d a b) := by
  intro pr h
  injection h with h
  subst h
  constructor <;> dsimp only [packCS, packCM, packCA, packStrided, packAR, packAI, packAV, packLane, packAX, packAT, packAF, packX, lone, Bool.toNat_true, Bool.toNat_false] <;> omega
theorem resume (a : GIx) : Statement (.resume a) := by
  intro pr h
  injection h with h
  subst h
  constructor <;> dsimp only [packCS, packCM, packCA, packStrided, packAR, packAI, packAV, packLane, packAX, packAT, packAF, packX, lone, Bool.toNat_true, Bool.toNat_false] <;> omega
theorem kill (a : GIx) : Statement (.kill a) := by
  intro pr h
  injection h with h
  subst h
  constructor <;> dsimp only [packCS, packCM, packCA, packStrided, packAR, packAI, packAV, packLane, packAX, packAT, packAF, packX, lone, Bool.toNat_true, Bool.toNat_false] <;> omega
theorem tlbinv (a : GIx) (b : GIx) : Statement (.tlbinv a b) := by
  intro pr h
  injection h with h
  subst h
  constructor <;> dsimp only [packCS, packCM, packCA, packStrided, packAR, packAI, packAV, packLane, packAX, packAT, packAF, packX, lone, Bool.toNat_true, Bool.toNat_false] <;> omega
theorem rdtime (d : GIx) : Statement (.rdtime d) := by
  intro pr h
  injection h with h
  subst h
  constructor <;> dsimp only [packCS, packCM, packCA, packStrided, packAR, packAI, packAV, packLane, packAX, packAT, packAF, packX, lone, Bool.toNat_true, Bool.toNat_false] <;> omega
theorem rdcyc (d : GIx) : Statement (.rdcyc d) := by
  intro pr h
  injection h with h
  subst h
  constructor <;> dsimp only [packCS, packCM, packCA, packStrided, packAR, packAI, packAV, packLane, packAX, packAT, packAF, packX, lone, Bool.toNat_true, Bool.toNat_false] <;> omega
theorem pcnt (d : GIx) (a : GIx) : Statement (.pcnt d a) := by
  intro pr h
  injection h with h
  subst h
  constructor <;> dsimp only [packCS, packCM, packCA, packStrided, packAR, packAI, packAV, packLane, packAX, packAT, packAF, packX, lone, Bool.toNat_true, Bool.toNat_false] <;> omega
theorem anop : Statement .anop := by
  intro pr h
  injection h with h
  subst h
  constructor <;> dsimp only [packCS, packCM, packCA, packStrided, packAR, packAI, packAV, packLane, packAX, packAT, packAF, packX, lone, Bool.toNat_true, Bool.toNat_false] <;> omega
theorem add (d : GIx) (a : GIx) (b : GIx) : Statement (.add d a b) := by
  intro pr h
  injection h with h
  subst h
  constructor <;> dsimp only [packCS, packCM, packCA, packStrided, packAR, packAI, packAV, packLane, packAX, packAT, packAF, packX, lone, Bool.toNat_true, Bool.toNat_false] <;> omega
theorem sub (d : GIx) (a : GIx) (b : GIx) : Statement (.sub d a b) := by
  intro pr h
  injection h with h
  subst h
  constructor <;> dsimp only [packCS, packCM, packCA, packStrided, packAR, packAI, packAV, packLane, packAX, packAT, packAF, packX, lone, Bool.toNat_true, Bool.toNat_false] <;> omega
theorem mul (d : GIx) (a : GIx) (b : GIx) : Statement (.mul d a b) := by
  intro pr h
  injection h with h
  subst h
  constructor <;> dsimp only [packCS, packCM, packCA, packStrided, packAR, packAI, packAV, packLane, packAX, packAT, packAF, packX, lone, Bool.toNat_true, Bool.toNat_false] <;> omega
theorem mulh (d : GIx) (a : GIx) (b : GIx) : Statement (.mulh d a b) := by
  intro pr h
  injection h with h
  subst h
  constructor <;> dsimp only [packCS, packCM, packCA, packStrided, packAR, packAI, packAV, packLane, packAX, packAT, packAF, packX, lone, Bool.toNat_true, Bool.toNat_false] <;> omega
theorem mulhu (d : GIx) (a : GIx) (b : GIx) : Statement (.mulhu d a b) := by
  intro pr h
  injection h with h
  subst h
  constructor <;> dsimp only [packCS, packCM, packCA, packStrided, packAR, packAI, packAV, packLane, packAX, packAT, packAF, packX, lone, Bool.toNat_true, Bool.toNat_false] <;> omega
theorem div (d : GIx) (a : GIx) (b : GIx) : Statement (.div d a b) := by
  intro pr h
  injection h with h
  subst h
  constructor <;> dsimp only [packCS, packCM, packCA, packStrided, packAR, packAI, packAV, packLane, packAX, packAT, packAF, packX, lone, Bool.toNat_true, Bool.toNat_false] <;> omega
theorem divu (d : GIx) (a : GIx) (b : GIx) : Statement (.divu d a b) := by
  intro pr h
  injection h with h
  subst h
  constructor <;> dsimp only [packCS, packCM, packCA, packStrided, packAR, packAI, packAV, packLane, packAX, packAT, packAF, packX, lone, Bool.toNat_true, Bool.toNat_false] <;> omega
theorem rem (d : GIx) (a : GIx) (b : GIx) : Statement (.rem d a b) := by
  intro pr h
  injection h with h
  subst h
  constructor <;> dsimp only [packCS, packCM, packCA, packStrided, packAR, packAI, packAV, packLane, packAX, packAT, packAF, packX, lone, Bool.toNat_true, Bool.toNat_false] <;> omega
theorem remu (d : GIx) (a : GIx) (b : GIx) : Statement (.remu d a b) := by
  intro pr h
  injection h with h
  subst h
  constructor <;> dsimp only [packCS, packCM, packCA, packStrided, packAR, packAI, packAV, packLane, packAX, packAT, packAF, packX, lone, Bool.toNat_true, Bool.toNat_false] <;> omega
theorem and (d : GIx) (a : GIx) (b : GIx) : Statement (.and d a b) := by
  intro pr h
  injection h with h
  subst h
  constructor <;> dsimp only [packCS, packCM, packCA, packStrided, packAR, packAI, packAV, packLane, packAX, packAT, packAF, packX, lone, Bool.toNat_true, Bool.toNat_false] <;> omega
theorem or (d : GIx) (a : GIx) (b : GIx) : Statement (.or d a b) := by
  intro pr h
  injection h with h
  subst h
  constructor <;> dsimp only [packCS, packCM, packCA, packStrided, packAR, packAI, packAV, packLane, packAX, packAT, packAF, packX, lone, Bool.toNat_true, Bool.toNat_false] <;> omega
theorem xor (d : GIx) (a : GIx) (b : GIx) : Statement (.xor d a b) := by
  intro pr h
  injection h with h
  subst h
  constructor <;> dsimp only [packCS, packCM, packCA, packStrided, packAR, packAI, packAV, packLane, packAX, packAT, packAF, packX, lone, Bool.toNat_true, Bool.toNat_false] <;> omega
theorem andn (d : GIx) (a : GIx) (b : GIx) : Statement (.andn d a b) := by
  intro pr h
  injection h with h
  subst h
  constructor <;> dsimp only [packCS, packCM, packCA, packStrided, packAR, packAI, packAV, packLane, packAX, packAT, packAF, packX, lone, Bool.toNat_true, Bool.toNat_false] <;> omega
theorem shl (d : GIx) (a : GIx) (b : GIx) : Statement (.shl d a b) := by
  intro pr h
  injection h with h
  subst h
  constructor <;> dsimp only [packCS, packCM, packCA, packStrided, packAR, packAI, packAV, packLane, packAX, packAT, packAF, packX, lone, Bool.toNat_true, Bool.toNat_false] <;> omega
theorem shr (d : GIx) (a : GIx) (b : GIx) : Statement (.shr d a b) := by
  intro pr h
  injection h with h
  subst h
  constructor <;> dsimp only [packCS, packCM, packCA, packStrided, packAR, packAI, packAV, packLane, packAX, packAT, packAF, packX, lone, Bool.toNat_true, Bool.toNat_false] <;> omega
theorem sra (d : GIx) (a : GIx) (b : GIx) : Statement (.sra d a b) := by
  intro pr h
  injection h with h
  subst h
  constructor <;> dsimp only [packCS, packCM, packCA, packStrided, packAR, packAI, packAV, packLane, packAX, packAT, packAF, packX, lone, Bool.toNat_true, Bool.toNat_false] <;> omega
theorem min (d : GIx) (a : GIx) (b : GIx) : Statement (.min d a b) := by
  intro pr h
  injection h with h
  subst h
  constructor <;> dsimp only [packCS, packCM, packCA, packStrided, packAR, packAI, packAV, packLane, packAX, packAT, packAF, packX, lone, Bool.toNat_true, Bool.toNat_false] <;> omega
theorem max (d : GIx) (a : GIx) (b : GIx) : Statement (.max d a b) := by
  intro pr h
  injection h with h
  subst h
  constructor <;> dsimp only [packCS, packCM, packCA, packStrided, packAR, packAI, packAV, packLane, packAX, packAT, packAF, packX, lone, Bool.toNat_true, Bool.toNat_false] <;> omega
theorem minu (d : GIx) (a : GIx) (b : GIx) : Statement (.minu d a b) := by
  intro pr h
  injection h with h
  subst h
  constructor <;> dsimp only [packCS, packCM, packCA, packStrided, packAR, packAI, packAV, packLane, packAX, packAT, packAF, packX, lone, Bool.toNat_true, Bool.toNat_false] <;> omega
theorem maxu (d : GIx) (a : GIx) (b : GIx) : Statement (.maxu d a b) := by
  intro pr h
  injection h with h
  subst h
  constructor <;> dsimp only [packCS, packCM, packCA, packStrided, packAR, packAI, packAV, packLane, packAX, packAT, packAF, packX, lone, Bool.toNat_true, Bool.toNat_false] <;> omega
theorem mov (d : GIx) (a : GIx) : Statement (.mov d a) := by
  intro pr h
  injection h with h
  subst h
  constructor <;> dsimp only [packCS, packCM, packCA, packStrided, packAR, packAI, packAV, packLane, packAX, packAT, packAF, packX, lone, Bool.toNat_true, Bool.toNat_false] <;> omega
theorem addi (d : GIx) (a : GIx) (imm : BitVec 13) : Statement (.addi d a imm) := by
  intro pr h
  injection h with h
  subst h
  constructor <;> dsimp only [packCS, packCM, packCA, packStrided, packAR, packAI, packAV, packLane, packAX, packAT, packAF, packX, lone, Bool.toNat_true, Bool.toNat_false] <;> omega
theorem andi (d : GIx) (a : GIx) (imm : BitVec 13) : Statement (.andi d a imm) := by
  intro pr h
  injection h with h
  subst h
  constructor <;> dsimp only [packCS, packCM, packCA, packStrided, packAR, packAI, packAV, packLane, packAX, packAT, packAF, packX, lone, Bool.toNat_true, Bool.toNat_false] <;> omega
theorem ori (d : GIx) (a : GIx) (imm : BitVec 13) : Statement (.ori d a imm) := by
  intro pr h
  injection h with h
  subst h
  constructor <;> dsimp only [packCS, packCM, packCA, packStrided, packAR, packAI, packAV, packLane, packAX, packAT, packAF, packX, lone, Bool.toNat_true, Bool.toNat_false] <;> omega
theorem xori (d : GIx) (a : GIx) (imm : BitVec 13) : Statement (.xori d a imm) := by
  intro pr h
  injection h with h
  subst h
  constructor <;> dsimp only [packCS, packCM, packCA, packStrided, packAR, packAI, packAV, packLane, packAX, packAT, packAF, packX, lone, Bool.toNat_true, Bool.toNat_false] <;> omega
theorem shli (d : GIx) (a : GIx) (sh : BitVec 6) : Statement (.shli d a sh) := by
  intro pr h
  injection h with h
  subst h
  constructor <;> dsimp only [packCS, packCM, packCA, packStrided, packAR, packAI, packAV, packLane, packAX, packAT, packAF, packX, lone, Bool.toNat_true, Bool.toNat_false] <;> omega
theorem shri (d : GIx) (a : GIx) (sh : BitVec 6) : Statement (.shri d a sh) := by
  intro pr h
  injection h with h
  subst h
  constructor <;> dsimp only [packCS, packCM, packCA, packStrided, packAR, packAI, packAV, packLane, packAX, packAT, packAF, packX, lone, Bool.toNat_true, Bool.toNat_false] <;> omega
theorem srai (d : GIx) (a : GIx) (sh : BitVec 6) : Statement (.srai d a sh) := by
  intro pr h
  injection h with h
  subst h
  constructor <;> dsimp only [packCS, packCM, packCA, packStrided, packAR, packAI, packAV, packLane, packAX, packAT, packAF, packX, lone, Bool.toNat_true, Bool.toNat_false] <;> omega
theorem movi (d : GIx) (imm : BitVec 13) : Statement (.movi d imm) := by
  intro pr h
  injection h with h
  subst h
  constructor <;> dsimp only [packCS, packCM, packCA, packStrided, packAR, packAI, packAV, packLane, packAX, packAT, packAF, packX, lone, Bool.toNat_true, Bool.toNat_false] <;> omega
theorem lea (d : GIx) (a : GIx) (b : GIx) (s : BitVec 3) (imm : BitVec 6) : Statement (.lea d a b s imm) := by
  intro pr h
  injection h with h
  subst h
  constructor <;> dsimp only [packCS, packCM, packCA, packStrided, packAR, packAI, packAV, packLane, packAX, packAT, packAF, packX, lone, Bool.toNat_true, Bool.toNat_false] <;> omega
theorem cmp (c : ICond) (d : PIx) (a : GIx) (b : GIx) : Statement (.cmp c d a b) := by
  intro pr h
  have := icond_lt c
  injection h with h
  subst h
  constructor <;> dsimp only [packCS, packCM, packCA, packStrided, packAR, packAI, packAV, packLane, packAX, packAT, packAF, packX, lone, Bool.toNat_true, Bool.toNat_false] <;> omega
theorem cmpi (c : ICond) (d : PIx) (a : GIx) (imm : BitVec 10) : Statement (.cmpi c d a imm) := by
  intro pr h
  have := icond_lt c
  injection h with h
  subst h
  constructor <;> dsimp only [packCS, packCM, packCA, packStrided, packAR, packAI, packAV, packLane, packAX, packAT, packAF, packX, lone, Bool.toNat_true, Bool.toNat_false] <;> omega
theorem clz (d : GIx) (a : GIx) : Statement (.clz d a) := by
  intro pr h
  injection h with h
  subst h
  constructor <;> dsimp only [packCS, packCM, packCA, packStrided, packAR, packAI, packAV, packLane, packAX, packAT, packAF, packX, lone, Bool.toNat_true, Bool.toNat_false] <;> omega
theorem ctz (d : GIx) (a : GIx) : Statement (.ctz d a) := by
  intro pr h
  injection h with h
  subst h
  constructor <;> dsimp only [packCS, packCM, packCA, packStrided, packAR, packAI, packAV, packLane, packAX, packAT, packAF, packX, lone, Bool.toNat_true, Bool.toNat_false] <;> omega
theorem popc (d : GIx) (a : GIx) : Statement (.popc d a) := by
  intro pr h
  injection h with h
  subst h
  constructor <;> dsimp only [packCS, packCM, packCA, packStrided, packAR, packAI, packAV, packLane, packAX, packAT, packAF, packX, lone, Bool.toNat_true, Bool.toNat_false] <;> omega
theorem sext (d : GIx) (a : GIx) (w : BitVec 6) : Statement (.sext d a w) := by
  intro pr h
  injection h with h
  subst h
  constructor <;> dsimp only [packCS, packCM, packCA, packStrided, packAR, packAI, packAV, packLane, packAX, packAT, packAF, packX, lone, Bool.toNat_true, Bool.toNat_false] <;> omega
theorem zext (d : GIx) (a : GIx) (w : BitVec 6) : Statement (.zext d a w) := by
  intro pr h
  injection h with h
  subst h
  constructor <;> dsimp only [packCS, packCM, packCA, packStrided, packAR, packAI, packAV, packLane, packAX, packAT, packAF, packX, lone, Bool.toNat_true, Bool.toNat_false] <;> omega
theorem bfx (sx : Bool) (d : GIx) (a : GIx) (q : BitVec 6) (n : BitVec 6) : Statement (.bfx sx d a q n) := by
  intro pr h
  have := bool_lt sx
  injection h with h
  subst h
  constructor <;> dsimp only [packCS, packCM, packCA, packStrided, packAR, packAI, packAV, packLane, packAX, packAT, packAF, packX, lone, Bool.toNat_true, Bool.toNat_false] <;> omega
theorem bfi (d : GIx) (a : GIx) (q : BitVec 6) (n : BitVec 6) : Statement (.bfi d a q n) := by
  intro pr h
  injection h with h
  subst h
  constructor <;> dsimp only [packCS, packCM, packCA, packStrided, packAR, packAI, packAV, packLane, packAX, packAT, packAF, packX, lone, Bool.toNat_true, Bool.toNat_false] <;> omega
theorem sel (d : GIx) (a : GIx) (b : GIx) (p : PIx) : Statement (.sel d a b p) := by
  intro pr h
  injection h with h
  subst h
  constructor <;> dsimp only [packCS, packCM, packCA, packStrided, packAR, packAI, packAV, packLane, packAX, packAT, packAF, packX, lone, Bool.toNat_true, Bool.toNat_false] <;> omega
theorem pand (d : PIx) (a : PIx) (b : PIx) : Statement (.pand d a b) := by
  intro pr h
  injection h with h
  subst h
  constructor <;> dsimp only [packCS, packCM, packCA, packStrided, packAR, packAI, packAV, packLane, packAX, packAT, packAF, packX, lone, Bool.toNat_true, Bool.toNat_false] <;> omega
theorem por (d : PIx) (a : PIx) (b : PIx) : Statement (.por d a b) := by
  intro pr h
  injection h with h
  subst h
  constructor <;> dsimp only [packCS, packCM, packCA, packStrided, packAR, packAI, packAV, packLane, packAX, packAT, packAF, packX, lone, Bool.toNat_true, Bool.toNat_false] <;> omega
theorem pxor (d : PIx) (a : PIx) (b : PIx) : Statement (.pxor d a b) := by
  intro pr h
  injection h with h
  subst h
  constructor <;> dsimp only [packCS, packCM, packCA, packStrided, packAR, packAI, packAV, packLane, packAX, packAT, packAF, packX, lone, Bool.toNat_true, Bool.toNat_false] <;> omega
theorem pnot (d : PIx) (a : PIx) : Statement (.pnot d a) := by
  intro pr h
  injection h with h
  subst h
  constructor <;> dsimp only [packCS, packCM, packCA, packStrided, packAR, packAI, packAV, packLane, packAX, packAT, packAF, packX, lone, Bool.toNat_true, Bool.toNat_false] <;> omega
theorem pget (d : GIx) : Statement (.pget d) := by
  intro pr h
  injection h with h
  subst h
  constructor <;> dsimp only [packCS, packCM, packCA, packStrided, packAR, packAI, packAV, packLane, packAX, packAT, packAF, packX, lone, Bool.toNat_true, Bool.toNat_false] <;> omega
theorem pset (a : GIx) : Statement (.pset a) := by
  intro pr h
  injection h with h
  subst h
  constructor <;> dsimp only [packCS, packCM, packCA, packStrided, packAR, packAI, packAV, packLane, packAX, packAT, packAF, packX, lone, Bool.toNat_true, Bool.toNat_false] <;> omega
theorem lmget (d : GIx) : Statement (.lmget d) := by
  intro pr h
  injection h with h
  subst h
  constructor <;> dsimp only [packCS, packCM, packCA, packStrided, packAR, packAI, packAV, packLane, packAX, packAT, packAF, packX, lone, Bool.toNat_true, Bool.toNat_false] <;> omega
theorem lmset (a : GIx) : Statement (.lmset a) := by
  intro pr h
  injection h with h
  subst h
  constructor <;> dsimp only [packCS, packCM, packCA, packStrided, packAR, packAI, packAV, packLane, packAX, packAT, packAF, packX, lone, Bool.toNat_true, Bool.toNat_false] <;> omega
theorem fadd (f : FFmt) (d : GIx) (a : GIx) (b : GIx) : Statement (.fadd f d a b) := by
  intro pr h
  have := ffmt_lt f
  injection h with h
  subst h
  constructor <;> dsimp only [packCS, packCM, packCA, packStrided, packAR, packAI, packAV, packLane, packAX, packAT, packAF, packX, lone, Bool.toNat_true, Bool.toNat_false] <;> omega
theorem fsub (f : FFmt) (d : GIx) (a : GIx) (b : GIx) : Statement (.fsub f d a b) := by
  intro pr h
  have := ffmt_lt f
  injection h with h
  subst h
  constructor <;> dsimp only [packCS, packCM, packCA, packStrided, packAR, packAI, packAV, packLane, packAX, packAT, packAF, packX, lone, Bool.toNat_true, Bool.toNat_false] <;> omega
theorem fmul (f : FFmt) (d : GIx) (a : GIx) (b : GIx) : Statement (.fmul f d a b) := by
  intro pr h
  have := ffmt_lt f
  injection h with h
  subst h
  constructor <;> dsimp only [packCS, packCM, packCA, packStrided, packAR, packAI, packAV, packLane, packAX, packAT, packAF, packX, lone, Bool.toNat_true, Bool.toNat_false] <;> omega
theorem fmin (f : FFmt) (d : GIx) (a : GIx) (b : GIx) : Statement (.fmin f d a b) := by
  intro pr h
  have := ffmt_lt f
  injection h with h
  subst h
  constructor <;> dsimp only [packCS, packCM, packCA, packStrided, packAR, packAI, packAV, packLane, packAX, packAT, packAF, packX, lone, Bool.toNat_true, Bool.toNat_false] <;> omega
theorem fmax (f : FFmt) (d : GIx) (a : GIx) (b : GIx) : Statement (.fmax f d a b) := by
  intro pr h
  have := ffmt_lt f
  injection h with h
  subst h
  constructor <;> dsimp only [packCS, packCM, packCA, packStrided, packAR, packAI, packAV, packLane, packAX, packAT, packAF, packX, lone, Bool.toNat_true, Bool.toNat_false] <;> omega
theorem fdiv (f : FFmt) (d : GIx) (a : GIx) (b : GIx) : Statement (.fdiv f d a b) := by
  intro pr h
  have := ffmt_lt f
  injection h with h
  subst h
  constructor <;> dsimp only [packCS, packCM, packCA, packStrided, packAR, packAI, packAV, packLane, packAX, packAT, packAF, packX, lone, Bool.toNat_true, Bool.toNat_false] <;> omega
theorem fsqrt (f : FFmt) (d : GIx) (a : GIx) : Statement (.fsqrt f d a) := by
  intro pr h
  have := ffmt_lt f
  injection h with h
  subst h
  constructor <;> dsimp only [packCS, packCM, packCA, packStrided, packAR, packAI, packAV, packLane, packAX, packAT, packAF, packX, lone, Bool.toNat_true, Bool.toNat_false] <;> omega
theorem fsgn (f : FFmt) (m : SgnMode) (d : GIx) (a : GIx) (b : GIx) : Statement (.fsgn f m d a b) := by
  intro pr h
  have := ffmt_lt f
  have := sgnmode_lt m
  injection h with h
  subst h
  constructor <;> dsimp only [packCS, packCM, packCA, packStrided, packAR, packAI, packAV, packLane, packAX, packAT, packAF, packX, lone, Bool.toNat_true, Bool.toNat_false] <;> omega
theorem fclass (f : FFmt) (d : GIx) (a : GIx) : Statement (.fclass f d a) := by
  intro pr h
  have := ffmt_lt f
  injection h with h
  subst h
  constructor <;> dsimp only [packCS, packCM, packCA, packStrided, packAR, packAI, packAV, packLane, packAX, packAT, packAF, packX, lone, Bool.toNat_true, Bool.toNat_false] <;> omega
theorem ffma (f : FFmt) (negP : Bool) (negA : Bool) (d : GIx) (a : GIx) (b : GIx) (c : Option GIx) : Statement (.ffma f negP negA d a b c) := by
  intro pr h
  have := ffmt_lt f
  have := bool_lt negP
  have := bool_lt negA
  rcases c with _ | c
  · injection h with h
    subst h
    constructor <;> dsimp only [packAF, Option.isNone] <;> omega
  · injection h with h
    subst h
    constructor <;> dsimp only [packAF, Option.isNone] <;> omega
theorem fcmp (f : FFmt) (c : FCond) (d : PIx) (a : GIx) (b : GIx) : Statement (.fcmp f c d a b) := by
  intro pr h
  have := ffmt_lt f
  have := fcond_lt c
  injection h with h
  subst h
  constructor <;> dsimp only [packCS, packCM, packCA, packStrided, packAR, packAI, packAV, packLane, packAX, packAT, packAF, packX, lone, Bool.toNat_true, Bool.toNat_false] <;> omega
theorem fcvt (f : FFmt) (c : FCvt) (d : GIx) (a : GIx) : Statement (.fcvt f c d a) := by
  intro pr h
  have := ffmt_lt f
  have := fcvt_lt c
  injection h with h
  subst h
  constructor <;> dsimp only [packCS, packCM, packCA, packStrided, packAR, packAI, packAV, packLane, packAX, packAT, packAF, packX, lone, Bool.toNat_true, Bool.toNat_false] <;> omega
theorem vadd (k : Lane) (m : Bool) (vd : VIx) (va : VIx) (vb : VIx) : Statement (.vadd k m vd va vb) := by
  intro pr h
  have := lane_lt k
  have := bool_lt m
  injection h with h
  subst h
  constructor <;> dsimp only [packCS, packCM, packCA, packStrided, packAR, packAI, packAV, packLane, packAX, packAT, packAF, packX, lone, Bool.toNat_true, Bool.toNat_false] <;> omega
theorem vsub (k : Lane) (m : Bool) (vd : VIx) (va : VIx) (vb : VIx) : Statement (.vsub k m vd va vb) := by
  intro pr h
  have := lane_lt k
  have := bool_lt m
  injection h with h
  subst h
  constructor <;> dsimp only [packCS, packCM, packCA, packStrided, packAR, packAI, packAV, packLane, packAX, packAT, packAF, packX, lone, Bool.toNat_true, Bool.toNat_false] <;> omega
theorem vmul (k : Lane) (m : Bool) (vd : VIx) (va : VIx) (vb : VIx) : Statement (.vmul k m vd va vb) := by
  intro pr h
  have := lane_lt k
  have := bool_lt m
  injection h with h
  subst h
  constructor <;> dsimp only [packCS, packCM, packCA, packStrided, packAR, packAI, packAV, packLane, packAX, packAT, packAF, packX, lone, Bool.toNat_true, Bool.toNat_false] <;> omega
theorem vmin (k : Lane) (m : Bool) (vd : VIx) (va : VIx) (vb : VIx) : Statement (.vmin k m vd va vb) := by
  intro pr h
  have := lane_lt k
  have := bool_lt m
  injection h with h
  subst h
  constructor <;> dsimp only [packCS, packCM, packCA, packStrided, packAR, packAI, packAV, packLane, packAX, packAT, packAF, packX, lone, Bool.toNat_true, Bool.toNat_false] <;> omega
theorem vmax (k : Lane) (m : Bool) (vd : VIx) (va : VIx) (vb : VIx) : Statement (.vmax k m vd va vb) := by
  intro pr h
  have := lane_lt k
  have := bool_lt m
  injection h with h
  subst h
  constructor <;> dsimp only [packCS, packCM, packCA, packStrided, packAR, packAI, packAV, packLane, packAX, packAT, packAF, packX, lone, Bool.toNat_true, Bool.toNat_false] <;> omega
theorem vabs (k : Lane) (m : Bool) (vd : VIx) (va : VIx) : Statement (.vabs k m vd va) := by
  intro pr h
  have := lane_lt k
  have := bool_lt m
  injection h with h
  subst h
  constructor <;> dsimp only [packCS, packCM, packCA, packStrided, packAR, packAI, packAV, packLane, packAX, packAT, packAF, packX, lone, Bool.toNat_true, Bool.toNat_false] <;> omega
theorem vneg (k : Lane) (m : Bool) (vd : VIx) (va : VIx) : Statement (.vneg k m vd va) := by
  intro pr h
  have := lane_lt k
  have := bool_lt m
  injection h with h
  subst h
  constructor <;> dsimp only [packCS, packCM, packCA, packStrided, packAR, packAI, packAV, packLane, packAX, packAT, packAF, packX, lone, Bool.toNat_true, Bool.toNat_false] <;> omega
theorem vand (e : ESize) (m : Bool) (vd : VIx) (va : VIx) (vb : VIx) : Statement (.vand e m vd va vb) := by
  intro pr h
  have := esize_lt e
  have := bool_lt m
  injection h with h
  subst h
  constructor <;> dsimp only [packCS, packCM, packCA, packStrided, packAR, packAI, packAV, packLane, packAX, packAT, packAF, packX, lone, Bool.toNat_true, Bool.toNat_false] <;> omega
theorem vor (e : ESize) (m : Bool) (vd : VIx) (va : VIx) (vb : VIx) : Statement (.vor e m vd va vb) := by
  intro pr h
  have := esize_lt e
  have := bool_lt m
  injection h with h
  subst h
  constructor <;> dsimp only [packCS, packCM, packCA, packStrided, packAR, packAI, packAV, packLane, packAX, packAT, packAF, packX, lone, Bool.toNat_true, Bool.toNat_false] <;> omega
theorem vxor (e : ESize) (m : Bool) (vd : VIx) (va : VIx) (vb : VIx) : Statement (.vxor e m vd va vb) := by
  intro pr h
  have := esize_lt e
  have := bool_lt m
  injection h with h
  subst h
  constructor <;> dsimp only [packCS, packCM, packCA, packStrided, packAR, packAI, packAV, packLane, packAX, packAT, packAF, packX, lone, Bool.toNat_true, Bool.toNat_false] <;> omega
theorem vshl (e : ESize) (m : Bool) (vd : VIx) (va : VIx) (vb : VIx) : Statement (.vshl e m vd va vb) := by
  intro pr h
  have := esize_lt e
  have := bool_lt m
  injection h with h
  subst h
  constructor <;> dsimp only [packCS, packCM, packCA, packStrided, packAR, packAI, packAV, packLane, packAX, packAT, packAF, packX, lone, Bool.toNat_true, Bool.toNat_false] <;> omega
theorem vshr (e : ESize) (m : Bool) (vd : VIx) (va : VIx) (vb : VIx) : Statement (.vshr e m vd va vb) := by
  intro pr h
  have := esize_lt e
  have := bool_lt m
  injection h with h
  subst h
  constructor <;> dsimp only [packCS, packCM, packCA, packStrided, packAR, packAI, packAV, packLane, packAX, packAT, packAF, packX, lone, Bool.toNat_true, Bool.toNat_false] <;> omega
theorem vsra (e : ESize) (m : Bool) (vd : VIx) (va : VIx) (vb : VIx) : Statement (.vsra e m vd va vb) := by
  intro pr h
  have := esize_lt e
  have := bool_lt m
  injection h with h
  subst h
  constructor <;> dsimp only [packCS, packCM, packCA, packStrided, packAR, packAI, packAV, packLane, packAX, packAT, packAF, packX, lone, Bool.toNat_true, Bool.toNat_false] <;> omega
theorem vsel (e : ESize) (m : Bool) (vd : VIx) (va : VIx) (vb : VIx) (vc : VIx) : Statement (.vsel e m vd va vb vc) := by
  intro pr h
  have := esize_lt e
  have := bool_lt m
  injection h with h
  subst h
  constructor <;> dsimp only [packCS, packCM, packCA, packStrided, packAR, packAI, packAV, packLane, packAX, packAT, packAF, packX, lone, Bool.toNat_true, Bool.toNat_false] <;> omega
theorem vmov (e : ESize) (m : Bool) (vd : VIx) (va : VIx) : Statement (.vmov e m vd va) := by
  intro pr h
  have := esize_lt e
  have := bool_lt m
  injection h with h
  subst h
  constructor <;> dsimp only [packCS, packCM, packCA, packStrided, packAR, packAI, packAV, packLane, packAX, packAT, packAF, packX, lone, Bool.toNat_true, Bool.toNat_false] <;> omega
theorem vfma (m : Bool) (vd : VIx) (va : VIx) (vb : VIx) (vc : VIx) : Statement (.vfma m vd va vb vc) := by
  intro pr h
  have := bool_lt m
  injection h with h
  subst h
  constructor <;> dsimp only [packCS, packCM, packCA, packStrided, packAR, packAI, packAV, packLane, packAX, packAT, packAF, packX, lone, Bool.toNat_true, Bool.toNat_false] <;> omega
theorem vcmp (op : VCmpOp) (m : Bool) (va : VIx) (vb : VIx) : Statement (.vcmp op m va vb) := by
  intro pr h
  rcases op with ⟨e, c⟩ | c
  · have := esize_lt e
    have := vicond_lt c
    have := bool_lt m
    injection h with h
    subst h
    constructor <;> dsimp only [packAV] <;> omega
  · have := vfcond_lt c
    have := bool_lt m
    injection h with h
    subst h
    constructor <;> dsimp only [packAV] <;> omega
theorem vbcast (e : ESize) (vd : VIx) (g : GIx) : Statement (.vbcast e vd g) := by
  intro pr h
  have := esize_lt e
  injection h with h
  subst h
  constructor <;> dsimp only [packCS, packCM, packCA, packStrided, packAR, packAI, packAV, packLane, packAX, packAT, packAF, packX, lone, Bool.toNat_true, Bool.toNat_false] <;> omega
theorem vext (e : ESize) (g : GIx) (vd : VIx) (lane : BitVec 6) : Statement (.vext e g vd lane) := by
  intro pr h
  have := esize_lt e
  injection h with h
  subst h
  constructor <;> dsimp only [packCS, packCM, packCA, packStrided, packAR, packAI, packAV, packLane, packAX, packAT, packAF, packX, lone, Bool.toNat_true, Bool.toNat_false] <;> omega
theorem vins (e : ESize) (vd : VIx) (g : GIx) (lane : BitVec 6) : Statement (.vins e vd g lane) := by
  intro pr h
  have := esize_lt e
  injection h with h
  subst h
  constructor <;> dsimp only [packCS, packCM, packCA, packStrided, packAR, packAI, packAV, packLane, packAX, packAT, packAF, packX, lone, Bool.toNat_true, Bool.toNat_false] <;> omega
theorem vperm (e : ESize) (m : Bool) (vd : VIx) (va : VIx) (vb : VIx) (vc : VIx) : Statement (.vperm e m vd va vb vc) := by
  intro pr h
  have := esize_lt e
  have := bool_lt m
  injection h with h
  subst h
  constructor <;> dsimp only [packCS, packCM, packCA, packStrided, packAR, packAI, packAV, packLane, packAX, packAT, packAF, packX, lone, Bool.toNat_true, Bool.toNat_false] <;> omega
theorem vred (op : VRedOp) (k : Lane) (m : Bool) (vd : VIx) (va : VIx) : Statement (.vred op k m vd va) := by
  intro pr h
  have := lane_lt k
  have := bool_lt m
  cases op
  all_goals
    injection h with h
    subst h
    constructor <;> dsimp only [packLane, packAV, Bool.toNat_true, Bool.toNat_false] <;> omega
theorem vamax (ign : Bool) (m : Bool) (vd : VIx) (va : VIx) : Statement (.vamax ign m vd va) := by
  intro pr h
  have := bool_lt ign
  have := bool_lt m
  injection h with h
  subst h
  constructor <;> dsimp only [packCS, packCM, packCA, packStrided, packAR, packAI, packAV, packLane, packAX, packAT, packAF, packX, lone, Bool.toNat_true, Bool.toNat_false] <;> omega
theorem vcvt (c : VCvt) (vd : VIx) (va : VIx) (x : VIx) : Statement (.vcvt c vd va x) := by
  intro pr h
  have := vcvt_lt c
  have := esz_lt c
  injection h with h
  subst h
  constructor <;> dsimp only [packCS, packCM, packCA, packStrided, packAR, packAI, packAV, packLane, packAX, packAT, packAF, packX, lone, Bool.toNat_true, Bool.toNat_false] <;> omega
theorem vscale (m : Bool) (vd : VIx) (va : VIx) (vb : VIx) : Statement (.vscale m vd va vb) := by
  intro pr h
  have := bool_lt m
  injection h with h
  subst h
  constructor <;> dsimp only [packCS, packCM, packCA, packStrided, packAR, packAI, packAV, packLane, packAX, packAT, packAF, packX, lone, Bool.toNat_true, Bool.toNat_false] <;> omega
theorem vdot (fl : Bool) (vd : VIx) (va : VIx) (vb : VIx) (vc : VIx) : Statement (.vdot fl vd va vb vc) := by
  intro pr h
  have := bool_lt fl
  cases fl
  all_goals
    injection h with h
    subst h
    constructor <;> dsimp only [packLane, packAV, Bool.toNat_true, Bool.toNat_false] <;> omega
theorem vrcp (vd : VIx) (va : VIx) : Statement (.vrcp vd va) := by
  intro pr h
  injection h with h
  subst h
  constructor <;> dsimp only [packCS, packCM, packCA, packStrided, packAR, packAI, packAV, packLane, packAX, packAT, packAF, packX, lone, Bool.toNat_true, Bool.toNat_false] <;> omega
theorem vexp2 (vd : VIx) (va : VIx) : Statement (.vexp2 vd va) := by
  intro pr h
  injection h with h
  subst h
  constructor <;> dsimp only [packCS, packCM, packCA, packStrided, packAR, packAI, packAV, packLane, packAX, packAT, packAF, packX, lone, Bool.toNat_true, Bool.toNat_false] <;> omega
theorem tcfg (td : TIx) (a : GIx) : Statement (.tcfg td a) := by
  intro pr h
  injection h with h
  subst h
  constructor <;> dsimp only [packCS, packCM, packCA, packStrided, packAR, packAI, packAV, packLane, packAX, packAT, packAF, packX, lone, Bool.toNat_true, Bool.toNat_false] <;> omega
theorem tzero (td : TIx) : Statement (.tzero td) := by
  intro pr h
  injection h with h
  subst h
  constructor <;> dsimp only [packCS, packCM, packCA, packStrided, packAR, packAI, packAV, packLane, packAX, packAT, packAF, packX, lone, Bool.toNat_true, Bool.toNat_false] <;> omega
theorem trel (td : TIx) : Statement (.trel td) := by
  intro pr h
  injection h with h
  subst h
  constructor <;> dsimp only [packCS, packCM, packCA, packStrided, packAR, packAI, packAV, packLane, packAX, packAT, packAF, packX, lone, Bool.toNat_true, Bool.toNat_false] <;> omega
theorem mfmt (a : GIx) : Statement (.mfmt a) := by
  intro pr h
  injection h with h
  subst h
  constructor <;> dsimp only [packCS, packCM, packCA, packStrided, packAR, packAI, packAV, packLane, packAX, packAT, packAF, packX, lone, Bool.toNat_true, Bool.toNat_false] <;> omega
theorem mma (td : TIx) (a : GIx) (b : GIx) : Statement (.mma td a b) := by
  intro pr h
  injection h with h
  subst h
  constructor <;> dsimp only [packCS, packCM, packCA, packStrided, packAR, packAI, packAV, packLane, packAX, packAT, packAF, packX, lone, Bool.toNat_true, Bool.toNat_false] <;> omega
theorem mmai (td : TIx) (a : GIx) (b : GIx) : Statement (.mmai td a b) := by
  intro pr h
  injection h with h
  subst h
  constructor <;> dsimp only [packCS, packCM, packCA, packStrided, packAR, packAI, packAV, packLane, packAX, packAT, packAF, packX, lone, Bool.toNat_true, Bool.toNat_false] <;> omega
theorem trowr (v : VIx) (td : TIx) (b : GIx) : Statement (.trowr v td b) := by
  intro pr h
  injection h with h
  subst h
  constructor <;> dsimp only [packCS, packCM, packCA, packStrided, packAR, packAI, packAV, packLane, packAX, packAT, packAF, packX, lone, Bool.toNat_true, Bool.toNat_false] <;> omega
theorem troww (td : TIx) (v : VIx) (b : GIx) : Statement (.troww td v b) := by
  intro pr h
  injection h with h
  subst h
  constructor <;> dsimp only [packCS, packCM, packCA, packStrided, packAR, packAI, packAV, packLane, packAX, packAT, packAF, packX, lone, Bool.toNat_true, Bool.toNat_false] <;> omega
theorem tcolr (v : VIx) (td : TIx) (b : GIx) : Statement (.tcolr v td b) := by
  intro pr h
  injection h with h
  subst h
  constructor <;> dsimp only [packCS, packCM, packCA, packStrided, packAR, packAI, packAV, packLane, packAX, packAT, packAF, packX, lone, Bool.toNat_true, Bool.toNat_false] <;> omega
theorem tcolw (td : TIx) (v : VIx) (b : GIx) : Statement (.tcolw td v b) := by
  intro pr h
  injection h with h
  subst h
  constructor <;> dsimp only [packCS, packCM, packCA, packStrided, packAR, packAI, packAV, packLane, packAX, packAT, packAF, packX, lone, Bool.toNat_true, Bool.toNat_false] <;> omega
theorem tstat (a : GIx) (td : TIx) : Statement (.tstat a td) := by
  intro pr h
  injection h with h
  subst h
  constructor <;> dsimp only [packCS, packCM, packCA, packStrided, packAR, packAI, packAV, packLane, packAX, packAT, packAF, packX, lone, Bool.toNat_true, Bool.toNat_false] <;> omega
theorem ttrans (td : TIx) (ta : TIx) : Statement (.ttrans td ta) := by
  intro pr h
  injection h with h
  subst h
  constructor <;> dsimp only [packCS, packCM, packCA, packStrided, packAR, packAI, packAV, packLane, packAX, packAT, packAF, packX, lone, Bool.toNat_true, Bool.toNat_false] <;> omega
theorem ctxCnop : Statement .ctxCnop := by
  intro pr h
  injection h with h
  subst h
  constructor <;> dsimp only [packCS, packCM, packCA, packStrided, packAR, packAI, packAV, packLane, packAX, packAT, packAF, packX, lone, Bool.toNat_true, Bool.toNat_false] <;> omega
theorem cmov (d : CIx) (o : Op2) : Statement (.cmov d o) := by
  intro pr h
  have := op2_lt o
  injection h with h
  subst h
  constructor <;> dsimp only [packCS, packCM, packCA, packStrided, packAR, packAI, packAV, packLane, packAX, packAT, packAF, packX, lone, Bool.toNat_true, Bool.toNat_false] <;> omega
theorem cidx (d : CIx) : Statement (.cidx d) := by
  intro pr h
  injection h with h
  subst h
  constructor <;> dsimp only [packCS, packCM, packCA, packStrided, packAR, packAI, packAV, packLane, packAX, packAT, packAF, packX, lone, Bool.toNat_true, Bool.toNat_false] <;> omega
theorem cget (d : CIx) (s : GetSel) : Statement (.cget d s) := by
  intro pr h
  have := getsel_lt s
  injection h with h
  subst h
  constructor <;> dsimp only [packCS, packCM, packCA, packStrided, packAR, packAI, packAV, packLane, packAX, packAT, packAF, packX, lone, Bool.toNat_true, Bool.toNat_false] <;> omega
theorem cput (s : PutSel) (a : CIx) : Statement (.cput s a) := by
  intro pr h
  have := putsel_lt s
  injection h with h
  subst h
  constructor <;> dsimp only [packCS, packCM, packCA, packStrided, packAR, packAI, packAV, packLane, packAX, packAT, packAF, packX, lone, Bool.toNat_true, Bool.toNat_false] <;> omega
theorem cadd (d : CIx) (a : CIx) (o : Op2) : Statement (.cadd d a o) := by
  intro pr h
  have := op2_lt o
  injection h with h
  subst h
  constructor <;> dsimp only [packCS, packCM, packCA, packStrided, packAR, packAI, packAV, packLane, packAX, packAT, packAF, packX, lone, Bool.toNat_true, Bool.toNat_false] <;> omega
theorem csub (d : CIx) (a : CIx) (o : Op2) : Statement (.csub d a o) := by
  intro pr h
  have := op2_lt o
  injection h with h
  subst h
  constructor <;> dsimp only [packCS, packCM, packCA, packStrided, packAR, packAI, packAV, packLane, packAX, packAT, packAF, packX, lone, Bool.toNat_true, Bool.toNat_false] <;> omega
theorem cmul (d : CIx) (a : CIx) (o : Op2) : Statement (.cmul d a o) := by
  intro pr h
  have := op2_lt o
  injection h with h
  subst h
  constructor <;> dsimp only [packCS, packCM, packCA, packStrided, packAR, packAI, packAV, packLane, packAX, packAT, packAF, packX, lone, Bool.toNat_true, Bool.toNat_false] <;> omega
theorem cand (d : CIx) (a : CIx) (o : Op2) : Statement (.cand d a o) := by
  intro pr h
  have := op2_lt o
  injection h with h
  subst h
  constructor <;> dsimp only [packCS, packCM, packCA, packStrided, packAR, packAI, packAV, packLane, packAX, packAT, packAF, packX, lone, Bool.toNat_true, Bool.toNat_false] <;> omega
theorem cor (d : CIx) (a : CIx) (o : Op2) : Statement (.cor d a o) := by
  intro pr h
  have := op2_lt o
  injection h with h
  subst h
  constructor <;> dsimp only [packCS, packCM, packCA, packStrided, packAR, packAI, packAV, packLane, packAX, packAT, packAF, packX, lone, Bool.toNat_true, Bool.toNat_false] <;> omega
theorem cshl (d : CIx) (a : CIx) (o : Op2) : Statement (.cshl d a o) := by
  intro pr h
  have := op2_lt o
  injection h with h
  subst h
  constructor <;> dsimp only [packCS, packCM, packCA, packStrided, packAR, packAI, packAV, packLane, packAX, packAT, packAF, packX, lone, Bool.toNat_true, Bool.toNat_false] <;> omega
theorem cshr (d : CIx) (a : CIx) (o : Op2) : Statement (.cshr d a o) := by
  intro pr h
  have := op2_lt o
  injection h with h
  subst h
  constructor <;> dsimp only [packCS, packCM, packCA, packStrided, packAR, packAI, packAV, packLane, packAX, packAT, packAF, packX, lone, Bool.toNat_true, Bool.toNat_false] <;> omega
theorem cmin (d : CIx) (a : CIx) (o : Op2) : Statement (.cmin d a o) := by
  intro pr h
  have := op2_lt o
  injection h with h
  subst h
  constructor <;> dsimp only [packCS, packCM, packCA, packStrided, packAR, packAI, packAV, packLane, packAX, packAT, packAF, packX, lone, Bool.toNat_true, Bool.toNat_false] <;> omega
theorem cmax (d : CIx) (a : CIx) (o : Op2) : Statement (.cmax d a o) := by
  intro pr h
  have := op2_lt o
  injection h with h
  subst h
  constructor <;> dsimp only [packCS, packCM, packCA, packStrided, packAR, packAI, packAV, packLane, packAX, packAT, packAF, packX, lone, Bool.toNat_true, Bool.toNat_false] <;> omega
theorem cfadd (d : CIx) (a : CIx) (o : Op2) : Statement (.cfadd d a o) := by
  intro pr h
  have := op2_lt o
  injection h with h
  subst h
  constructor <;> dsimp only [packCS, packCM, packCA, packStrided, packAR, packAI, packAV, packLane, packAX, packAT, packAF, packX, lone, Bool.toNat_true, Bool.toNat_false] <;> omega
theorem cfmul (d : CIx) (a : CIx) (o : Op2) : Statement (.cfmul d a o) := by
  intro pr h
  have := op2_lt o
  injection h with h
  subst h
  constructor <;> dsimp only [packCS, packCM, packCA, packStrided, packAR, packAI, packAV, packLane, packAX, packAT, packAF, packX, lone, Bool.toNat_true, Bool.toNat_false] <;> omega
theorem cfmax (d : CIx) (a : CIx) (o : Op2) : Statement (.cfmax d a o) := by
  intro pr h
  have := op2_lt o
  injection h with h
  subst h
  constructor <;> dsimp only [packCS, packCM, packCA, packStrided, packAR, packAI, packAV, packLane, packAX, packAT, packAF, packX, lone, Bool.toNat_true, Bool.toNat_false] <;> omega
theorem ccmp (c : CCond) (a : CIx) (o : Op2) : Statement (.ccmp c a o) := by
  intro pr h
  have := ccond_lt c
  have := op2_lt o
  injection h with h
  subst h
  constructor <;> dsimp only [packCS, packCM, packCA, packStrided, packAR, packAI, packAV, packLane, packAX, packAT, packAF, packX, lone, Bool.toNat_true, Bool.toNat_false] <;> omega
theorem cjmp (c : JCond) (t : BitVec 6) : Statement (.cjmp c t) := by
  intro pr h
  have := jcond_lt c
  injection h with h
  subst h
  constructor <;> dsimp only [packCS, packCM, packCA, packStrided, packAR, packAI, packAV, packLane, packAX, packAT, packAF, packX, lone, Bool.toNat_true, Bool.toNat_false] <;> omega
theorem cnb (d : CIx) (o : Op2) : Statement (.cnb d o) := by
  intro pr h
  have := op2_lt o
  injection h with h
  subst h
  constructor <;> dsimp only [packCS, packCM, packCA, packStrided, packAR, packAI, packAV, packLane, packAX, packAT, packAF, packX, lone, Bool.toNat_true, Bool.toNat_false] <;> omega
theorem cin (d : CIx) : Statement (.cin d) := by
  intro pr h
  injection h with h
  subst h
  constructor <;> dsimp only [packCS, packCM, packCA, packStrided, packAR, packAI, packAV, packLane, packAX, packAT, packAF, packX, lone, Bool.toNat_true, Bool.toNat_false] <;> omega
theorem cout (a : CIx) : Statement (.cout a) := by
  intro pr h
  injection h with h
  subst h
  constructor <;> dsimp only [packCS, packCM, packCA, packStrided, packAR, packAI, packAV, packLane, packAX, packAT, packAF, packX, lone, Bool.toNat_true, Bool.toNat_false] <;> omega
theorem cwe (a : CIx) (t : BitVec 6) : Statement (.cwe a t) := by
  intro pr h
  injection h with h
  subst h
  constructor <;> dsimp only [packCS, packCM, packCA, packStrided, packAR, packAI, packAV, packLane, packAX, packAT, packAF, packX, lone, Bool.toNat_true, Bool.toNat_false] <;> omega
theorem cws (s : Fin 16) : Statement (.cws s) := by
  intro pr h
  injection h with h
  subst h
  constructor <;> dsimp only [packCS, packCM, packCA, packStrided, packAR, packAI, packAV, packLane, packAX, packAT, packAF, packX, lone, Bool.toNat_true, Bool.toNat_false] <;> omega
theorem cww (o : Op2) : Statement (.cww o) := by
  intro pr h
  have := op2_lt o
  injection h with h
  subst h
  constructor <;> dsimp only [packCS, packCM, packCA, packStrided, packAR, packAI, packAV, packLane, packAX, packAT, packAF, packX, lone, Bool.toNat_true, Bool.toNat_false] <;> omega
theorem csig (k : Fin 4) : Statement (.csig k) := by
  intro pr h
  injection h with h
  subst h
  constructor <;> dsimp only [packCS, packCM, packCA, packStrided, packAR, packAI, packAV, packLane, packAX, packAT, packAF, packX, lone, Bool.toNat_true, Bool.toNat_false] <;> omega
theorem cdone : Statement .cdone := by
  intro pr h
  injection h with h
  subst h
  constructor <;> dsimp only [packCS, packCM, packCA, packStrided, packAR, packAI, packAV, packLane, packAX, packAT, packAF, packX, lone, Bool.toNat_true, Bool.toNat_false] <;> omega
theorem cflt (code : BitVec 8) : Statement (.cflt code) := by
  intro pr h
  injection h with h
  subst h
  constructor <;> dsimp only [packCS, packCM, packCA, packStrided, packAR, packAI, packAV, packLane, packAX, packAT, packAF, packX, lone, Bool.toNat_true, Bool.toNat_false] <;> omega
theorem accessComplete (core : Nat) (slot : Nat) (id : Nat) (err : Bool) : Statement (.accessComplete core slot id err) := fun _ h => nomatch h
theorem lateFault (core : Nat) (slot : Nat) : Statement (.lateFault core slot) := fun _ h => nomatch h
theorem registerFill (core : Nat) (n : Nat) : Statement (.registerFill core n) := fun _ h => nomatch h
theorem streamElementFetch (core : Nat) (slot : Nat) (port : Fin 4) : Statement (.streamElementFetch core slot port) := fun _ h => nomatch h
theorem streamDrain (core : Nat) (slot : Nat) (port : Fin 4) : Statement (.streamDrain core slot port) := fun _ h => nomatch h
theorem matrixRequestStart (cluster : Nat) : Statement (.matrixRequestStart cluster) := fun _ h => nomatch h
theorem matrixResultWrite (core : Nat) (err : Bool) : Statement (.matrixResultWrite core err) := fun _ h => nomatch h
theorem engineOperationStart (core : Nat) : Statement (.engineOperationStart core) := fun _ h => nomatch h
theorem engineOperationComplete (core : Nat) (n : Nat) (io : IoReply) : Statement (.engineOperationComplete core n io) := fun _ h => nomatch h
theorem waitShelveTimeout (core : Nat) (slot : Nat) : Statement (.waitShelveTimeout core slot) := fun _ h => nomatch h
theorem orphanTimeout (n : Nat) : Statement (.orphanTimeout n) := fun _ h => nomatch h
theorem slotClaim (core : Nat) : Statement (.slotClaim core) := fun _ h => nomatch h
theorem migrationArrival (n : Nat) : Statement (.migrationArrival n) := fun _ h => nomatch h
theorem starvationGuard (core : Nat) (slot : Nat) : Statement (.starvationGuard core slot) := fun _ h => nomatch h
theorem preEmption (core : Nat) (slot : Nat) : Statement (.preEmption core slot) := fun _ h => nomatch h
theorem preEmptionSave (core : Nat) (slot : Nat) : Statement (.preEmptionSave core slot) := fun _ h => nomatch h
theorem replyCatcher (core : Nat) (n : Nat) (id : Nat) (err : Bool) : Statement (.replyCatcher core n id err) := fun _ h => nomatch h
theorem trapRecord (core : Nat) (slot : Nat) : Statement (.trapRecord core slot) := fun _ h => nomatch h
theorem breakpoint (core : Nat) (slot : Nat) : Statement (.breakpoint core slot) := fun _ h => nomatch h
theorem storeCompare (core : Nat) (slot : Nat) : Statement (.storeCompare core slot) := fun _ h => nomatch h
theorem containment (core : Nat) : Statement (.containment core) := fun _ h => nomatch h
theorem pageWalk (cluster : Nat) (root : Word) (va : Word) : Statement (.pageWalk cluster root va) := fun _ h => nomatch h
theorem wsfrzWrite (die : Fin 4) (b : Bool) : Statement (.wsfrzWrite die b) := fun _ h => nomatch h
theorem wsfrzCopyUpdate (core : Nat) (die : Fin 4) : Statement (.wsfrzCopyUpdate core die) := fun _ h => nomatch h
theorem sampctlWrite (v : BitVec 8) : Statement (.sampctlWrite v) := fun _ h => nomatch h
theorem pcntclr (core : Nat) : Statement (.pcntclr core) := fun _ h => nomatch h
theorem registerWrite (w : RegWrite) : Statement (.registerWrite w) := fun _ h => nomatch h
theorem samplingPulse : Statement .samplingPulse := fun _ h => nomatch h
theorem weightStoreRefresh (die : Nat) (bank : Nat) : Statement (.weightStoreRefresh die bank) := fun _ h => nomatch h
theorem dramRefresh (die : Nat) (chan : Nat) (bank : Nat) : Statement (.dramRefresh die chan bank) := fun _ h => nomatch h
theorem temperatureChange (die : Fin 4) (layer : Fin 8) (celsius : Int) : Statement (.temperatureChange die layer celsius) := fun _ h => nomatch h
theorem overheat (die : Fin 4) (b : BringUp) : Statement (.overheat die b) := fun _ h => nomatch h
theorem scrub (key : Nat) (f : ScrubFind) : Statement (.scrub key f) := fun _ h => nomatch h
theorem powerGrant (die : Fin 4) (amount : Nat) : Statement (.powerGrant die amount) := fun _ h => nomatch h
theorem tailWrite (q : Nat) (v : BitVec 32) : Statement (.tailWrite q v) := fun _ h => nomatch h
theorem queueBind : Statement .queueBind := fun _ h => nomatch h
theorem queueUnbind (n : Nat) : Statement (.queueUnbind n) := fun _ h => nomatch h
theorem nopEntry (q : Nat) : Statement (.nopEntry q) := fun _ h => nomatch h
theorem launchEntry (q : Nat) : Statement (.launchEntry q) := fun _ h => nomatch h
theorem waitobj (q : Nat) : Statement (.waitobj q) := fun _ h => nomatch h
theorem signalobjOblige (q : Nat) : Statement (.signalobjOblige q) := fun _ h => nomatch h
theorem signalobjSignal (q : Nat) : Statement (.signalobjSignal q) := fun _ h => nomatch h
theorem signalobjPoison (q : Nat) : Statement (.signalobjPoison q) := fun _ h => nomatch h
theorem copyEntry (q : Nat) : Statement (.copyEntry q) := fun _ h => nomatch h
theorem jumpEntry (q : Nat) : Statement (.jumpEntry q) := fun _ h => nomatch h
theorem callEntry (q : Nat) : Statement (.callEntry q) := fun _ h => nomatch h
theorem returnEntry (q : Nat) : Statement (.returnEntry q) := fun _ h => nomatch h
theorem skipif (q : Nat) : Statement (.skipif q) := fun _ h => nomatch h
theorem fenceEntry (q : Nat) : Statement (.fenceEntry q) := fun _ h => nomatch h
theorem debugHalt (q : Nat) : Statement (.debugHalt q) := fun _ h => nomatch h
theorem debugRead (q : Nat) : Statement (.debugRead q) := fun _ h => nomatch h
theorem debugWrite (q : Nat) : Statement (.debugWrite q) := fun _ h => nomatch h
theorem debugSetbp (q : Nat) : Statement (.debugSetbp q) := fun _ h => nomatch h
theorem debugClrbp (q : Nat) : Statement (.debugClrbp q) := fun _ h => nomatch h
theorem debugResume (q : Nat) : Statement (.debugResume q) := fun _ h => nomatch h
theorem completionRecord (q : Nat) : Statement (.completionRecord q) := fun _ h => nomatch h
theorem hostMemoryAccess (addr : Nat) (wr : Bool) (data : List Byte) : Statement (.hostMemoryAccess addr wr data) := fun _ h => nomatch h
theorem expanderLinkDown (port : Nat) : Statement (.expanderLinkDown port) := fun _ h => nomatch h
theorem partFailure (p : Part) : Statement (.partFailure p) := fun _ h => nomatch h
theorem heartbeat (link : Nat) : Statement (.heartbeat link) := fun _ h => nomatch h
theorem flitResend (link : Nat) : Statement (.flitResend link) := fun _ h => nomatch h
theorem linkDown (link : Nat) : Statement (.linkDown link) := fun _ h => nomatch h
theorem linkRetrain (link : Nat) : Statement (.linkRetrain link) := fun _ h => nomatch h
theorem packetExpiry (n : Nat) : Statement (.packetExpiry n) := fun _ h => nomatch h
theorem pktWrite (p : Packet) : Statement (.pktWrite p) := fun _ h => nomatch h
theorem pktMwrite (p : Packet) : Statement (.pktMwrite p) := fun _ h => nomatch h
theorem pktRead (p : Packet) : Statement (.pktRead p) := fun _ h => nomatch h
theorem pktRdata (p : Packet) : Statement (.pktRdata p) := fun _ h => nomatch h
theorem pktAtom (p : Packet) : Statement (.pktAtom p) := fun _ h => nomatch h
theorem pktAdata (p : Packet) : Statement (.pktAdata p) := fun _ h => nomatch h
theorem pktFlag (p : Packet) : Statement (.pktFlag p) := fun _ h => nomatch h
theorem pktMflag (p : Packet) : Statement (.pktMflag p) := fun _ h => nomatch h
theorem pktOpen (p : Packet) : Statement (.pktOpen p) := fun _ h => nomatch h
theorem pktOpenr (p : Packet) : Statement (.pktOpenr p) := fun _ h => nomatch h
theorem pktShort (p : Packet) : Statement (.pktShort p) := fun _ h => nomatch h
theorem pktRefuse (p : Packet) : Statement (.pktRefuse p) := fun _ h => nomatch h
theorem pktReport (p : Packet) : Statement (.pktReport p) := fun _ h => nomatch h
theorem pktBusy (p : Packet) : Statement (.pktBusy p) := fun _ h => nomatch h
theorem flagResend (n : Nat) : Statement (.flagResend n) := fun _ h => nomatch h
theorem holdTimeout (die : Fin 4) (ix : Nat) : Statement (.holdTimeout die ix) := fun _ h => nomatch h
theorem shortResend (die : Fin 4) (ix : Nat) : Statement (.shortResend die ix) := fun _ h => nomatch h
theorem reportTimeout (n : Nat) : Statement (.reportTimeout n) := fun _ h => nomatch h
theorem groupDecision (p : Packet) : Statement (.groupDecision p) := fun _ h => nomatch h
theorem groupReportTimeout (n : Nat) : Statement (.groupReportTimeout n) := fun _ h => nomatch h
theorem replayLogRetire (die : Fin 4) : Statement (.replayLogRetire die) := fun _ h => nomatch h
theorem fabricReadResend (core : Nat) (slot : Nat) (id : Nat) : Statement (.fabricReadResend core slot id) := fun _ h => nomatch h
theorem atomicTimeout (core : Nat) (slot : Nat) (id : Nat) : Statement (.atomicTimeout core slot id) := fun _ h => nomatch h
theorem redputPacket (p : Packet) : Statement (.redputPacket p) := fun _ h => nomatch h
theorem redres (p : Packet) : Statement (.redres p) := fun _ h => nomatch h
theorem reductionTimeout (n : Nat) : Statement (.reductionTimeout n) := fun _ h => nomatch h
theorem reductionSlotFree (n : Nat) : Statement (.reductionSlotFree n) := fun _ h => nomatch h
theorem silent (p : Packet) : Statement (.silent p) := fun _ h => nomatch h
theorem pktDead (p : Packet) : Statement (.pktDead p) := fun _ h => nomatch h
theorem sweepStart (cluster : Nat) (h : Fin 16) : Statement (.sweepStart cluster h) := fun _ h => nomatch h
theorem bandVisit (cluster : Nat) : Statement (.bandVisit cluster) := fun _ h => nomatch h
theorem idleWake (cluster : Nat) (h : Fin 16) : Statement (.idleWake cluster h) := fun _ h => nomatch h
theorem engineSwitch (cluster : Nat) (h : Fin 16) : Statement (.engineSwitch cluster h) := fun _ h => nomatch h
theorem coldReset (b : BringUp) : Statement (.coldReset b) := fun _ h => nomatch h
theorem warmReset : Statement .warmReset := fun _ h => nomatch h
theorem clusterReset (cluster : Nat) (selfTestPassed : Bool) : Statement (.clusterReset cluster selfTestPassed) := fun _ h => nomatch h
theorem coreReset (core : Nat) : Statement (.coreReset core) := fun _ h => nomatch h
theorem imageUpload (im : FwImage) : Statement (.imageUpload im) := fun _ h => nomatch h
theorem attestationRequest (nonce : BitVec 384) : Statement (.attestationRequest nonce) := fun _ h => nomatch h
theorem encodingFault : Statement .encodingFault := fun _ h => nomatch h
theorem fetchFault (uncorrectable : Bool) : Statement (.fetchFault uncorrectable) := fun _ h => nomatch h
theorem unassignedPacketType (p : Packet) : Statement (.unassignedPacketType p) := fun _ h => nomatch h
theorem warmResetComplete : Statement .warmResetComplete := fun _ h => nomatch h

end Sys2Proof.Laws.Fits
end

