-- ==== Sys2Proof/Laws/Trap.lean ====
section
/-! SUPPORT. Taking a trap and returning from it: all that the two operations change. -/

namespace Sys2Proof.Machine

/-- The task of a slot with the record of a trap (R276, R378). -/
def Ctx.trapped (c : Ctx) (i : Fin 16) (t : TrapRec) : Ctx :=
  { c with
    trap := some t, handled := c.trail, faultSlot := i, answered := none
    inflight := if t.late then t.inflight else inflightOf c.accs }

/-- The slot that has taken a trap is the slot with its record, in state 8. -/
theorem State.slotAt_takeTrap (s : State) (n : Nat) (i : Fin 16) (t : TrapRec) :
    (s.takeTrap n i t).slotAt n i = ((s.modCtxAt n i fun c => c.trapped i t).setSt n i .faulted).slotAt n i := by
  unfold State.takeTrap
  rw [State.slotAt_modCore_keep]
  · rfl
  · intro c
    rfl

/-- The slot is in state 8 (R276). -/
theorem State.st_takeTrap (s : State) (n : Nat) (i : Fin 16) (t : TrapRec) : ((s.takeTrap n i t).slotAt n i).st = .faulted := by
  rw [State.slotAt_takeTrap, State.st_setSt]

/-- The task keeps all but its record and its parked count (R50, R276). -/
theorem State.ctxAt_takeTrap (s : State) (n : Nat) (i : Fin 16) (t : TrapRec) : ∃ k, (s.takeTrap n i t).ctxAt n i =
    { (s.ctxAt n i).trapped i t with pcnt1 := k } := by
  have e : (s.takeTrap n i t).ctxAt n i = ((s.modCtxAt n i fun c => c.trapped i t).setSt n i .faulted).ctxAt n i :=
    congrArg Slot.ctx (State.slotAt_takeTrap s n i t)
  rw [e, State.ctxAt_setSt]
  unfold State.entered
  rw [State.ctxAt_modCtxAt_same]
  split <;> exact ⟨_, rfl⟩

/-- Every other slot of the core stays. -/
theorem State.slotAt_takeTrap_other (s : State) (n : Nat) {i j : Fin 16} (t : TrapRec) (h : j ≠ i) :
    (s.takeTrap n i t).slotAt n j = s.slotAt n j := by
  unfold State.takeTrap
  rw [State.slotAt_modCore_keep]
  · unfold State.setSt State.modCtxAt
    rw [State.slotAt_modSlot_other _ _ _ h, State.slotAt_modSlot_other _ _ _ h]
  · intro c
    rfl

/-- Nothing outside the core changes. -/
theorem State.takeTrap_fields (s : State) (n : Nat) (i : Fin 16) (t : TrapRec) :
    (s.takeTrap n i t).mem = s.mem ∧ (s.takeTrap n i t).hub = s.hub ∧ (s.takeTrap n i t).clk = s.clk ∧
      (s.takeTrap n i t).clusters = s.clusters ∧ (s.takeTrap n i t).dies = s.dies ∧ (s.takeTrap n i t).agenda = s.agenda :=
  ⟨rfl, rfl, rfl, rfl, rfl, rfl⟩

/-- A slot in another state than 8 is not resumed (R271). -/
theorem State.resumeTask_other (s : State) (n : Nat) (i : Fin 16) (h : (s.slotAt n i).st ≠ .faulted) : s.resumeTask n i = s := by
  unfold State.resumeTask
  rw [if_neg h]

/-- A resumed slot is in state 1 (R271). -/
theorem State.st_resumeTask (s : State) (n : Nat) (i : Fin 16) (h : (s.slotAt n i).st = .faulted) :
    ((s.resumeTask n i).slotAt n i).st = .ready := by
  unfold State.resumeTask
  rw [if_pos h, State.st_setSt]

end Sys2Proof.Machine
end

