-- ==== Sys2Proof/Tests/Slice0.lean ====
section
/-! SUPPORT. Tests. The words of the decode tests are written out from the field tables of the spec's chapters 03, 05 to
11 and from its worked examples; expected results are the spec's worked values or are counted by hand from its rules.
The witnesses show, for each statement, states and operands that meet its hypotheses. -/

open Sys2Proof Sys2Proof.Machine

set_option Elab.async false

/-! ### Well-formed terms (R53, R68 to R74, R238): one ill-formed term for each check -/

theorem test_wellFormed_refuses :
    [Instr.lds .d false 0 0 0, .ldsWide .d true 1 2 3, .aadd .wu .core .rlx 0 1 2, .aand .du .core .rlx 0 1 2,
      .aor .wu .clu .acq 0 1 2, .axor .du .die .rel 0 1 2, .aswp .wu .dev .ar 0 1 2, .acas .du .core .rlx 0 1 2,
      .acas .w .core .rlx 0 1 15, .sbind 9 1, .sunbind 14, .sstat 1 9, .tplane 0 0 15 1, .cpyqWt 13, .cpyqBz 1 13, .iordWt 14,
      .iordBz 1 13, .mbrd 15 0, .send 3 0 13, .sendOb 7 0 0 9, .bfx false 0 1 1 63, .bfi 0 1 32 32, .fcvt .f32 .toF32 0 1,
      .fcvt .f32 .fromF32 0 1, .vext .w 0 0 16, .vins .h 0 0 32, .vcvt .f32i32 0 0 1, .vcvt .f16f32 0 0 2, .vcvt .e5m2f32 0 0 4,
      .cflt 0xF0].all (fun i => !i.wellFormed) = true := by decide +kernel

theorem test_wellFormed_accepts :
    [Instr.lds .w false 0 0 0, .amin .wu .core .rlx 0 1 2, .aadd .d .fab .ar 0 1 2, .acas .w .core .rlx 0 1 14, .sbind 10 1,
      .sunbind 13, .sstat 1 10, .tplane 0 0 14 1, .cpyqWt 12, .iordBz 1 12, .mbrd 14 0, .send 3 0 12, .sendOb 7 0 0 8,
      .bfx true 0 1 0 63, .bfi 0 1 32 31, .fcvt .bf16 .toF32 0 1, .vext .w 0 0 15, .vins .b 0 0 63, .vcvt .i32f32 0 0 0,
      .vcvt .e2m1f32 0 0 7, .cflt 0xEF, .tailWrite 1 2].all Instr.wellFormed = true := by decide +kernel

/-! ### Decoding, every operand field at a value of its own, and the predicate and settle fields set -/

theorem test_decode_control :
    [(0x0E000000, 0x0, Instr.cnop),
      (0x0E0E5A5B, 0x0, Instr.br 0x65a5b),
      (0x8E080000, 0x89ABCDEF, Instr.brWide 0x89ABCDEF),
      (0x0E165A5B, 0x0, Instr.call 0x65a5b),
      (0x8E100000, 0x89ABCDEF, Instr.callWide 0x89ABCDEF),
      (0x0E182800, 0x0, Instr.jmp 5),
      (0x0E182801, 0x0, Instr.callr 5),
      (0x0E180002, 0x0, Instr.ret),
      (0x0E200000, 0x0, Instr.halt),
      (0x0E206D81, 0x0, Instr.trapi 0xdb),
      (0x0E206D82, 0x0, Instr.syscall 0xdb),
      (0x8E2A8000, 0x89ABCDEF, Instr.movl 5 0x89ABCDEF),
      (0x8E328000, 0x89ABCDEF, Instr.movh 5 0x89ABCDEF)].all
      (fun e => decodeC e.1 e.2.1 == some e.2.2) = true := by decide +kernel

theorem test_decode_memory :
    [(0x0E42B7DB, 0x0, Instr.ld .d true 5 6 0xdb),
      (0x8E42B700, 0x89ABCDEF, Instr.ldWide .d true 5 6 0x89ABCDEF),
      (0x0E4AB683, 0x0, Instr.lds .w true 5 6 0x83),
      (0x8E4AB600, 0x89ABCDEF, Instr.ldsWide .w true 5 6 0x89ABCDEF),
      (0x0E52B7DB, 0x0, Instr.st .d true 5 6 0xdb),
      (0x8E52B700, 0x89ABCDEF, Instr.stWide .d true 5 6 0x89ABCDEF),
      (0x0E59AFDB, 0x0, Instr.ldv true 3 5 0xdb),
      (0x8E59AF00, 0x89ABCDEF, Instr.ldvWide true 3 5 0x89ABCDEF),
      (0x0E61AFDB, 0x0, Instr.stv true 3 5 0xdb),
      (0x8E61AF00, 0x89ABCDEF, Instr.stvWide true 3 5 0x89ABCDEF),
      (0x0E69AB0C, 0x0, Instr.ldvs .b true 3 5 6),
      (0x0E69AB0D, 0x0, Instr.stvs .b true 3 5 6),
      (0x0E71AA0C, 0x0, Instr.vgath .b true 3 5 4),
      (0x0E71AA0D, 0x0, Instr.vscat .b true 3 5 4)].all
      (fun e => decodeC e.1 e.2.1 == some e.2.2) = true := by decide +kernel

theorem test_decode_accesses :
    [(0x0E82B3CD, 0x0, Instr.aadd .d .fab .ar 5 6 7),
      (0x0E8AB3CD, 0x0, Instr.aand .d .fab .ar 5 6 7),
      (0x0E92B3CD, 0x0, Instr.aor .d .fab .ar 5 6 7),
      (0x0E9AB3CD, 0x0, Instr.axor .d .fab .ar 5 6 7),
      (0x0EA2B3CF, 0x0, Instr.amin .du .fab .ar 5 6 7),
      (0x0EAAB3CF, 0x0, Instr.amax .du .fab .ar 5 6 7),
      (0x0EB2B3CD, 0x0, Instr.aswp .d .fab .ar 5 6 7),
      (0x0EBAB3CD, 0x0, Instr.acas .d .fab .ar 5 6 7),
      (0x0EC2B3CC, 0x0, Instr.afadd .fab .ar 5 6 7),
      (0x0EC8001C, 0x0, Instr.fence .fab .ar),
      (0x0ED63000, 0x0, Instr.sbind 12 6),
      (0x0ED68001, 0x0, Instr.sunbind 13),
      (0x0ED2D002, 0x0, Instr.sstat 5 10),
      (0x0EDAAB00, 0x0, Instr.tld 5 5 6),
      (0x0EDAAB01, 0x0, Instr.tldBd 5 5 6),
      (0x0EE2AB00, 0x0, Instr.tst 5 5 6),
      (0x0EE2AB01, 0x0, Instr.tstBd 5 5 6),
      (0x0EEAB386, 0x0, Instr.tplane 6 5 6 7),
      (0x0EF02B00, 0x0, Instr.regput 5 6),
      (0x0EF28001, 0x0, Instr.emptyr 5)].all
      (fun e => decodeC e.1 e.2.1 == some e.2.2) = true := by decide +kernel

theorem test_decode_objects :
    [(0x0F02B381, 0x0, Instr.obnew .counter 5 6 7),
      (0x0F082800, 0x0, Instr.oblige 5),
      (0x0F102B00, 0x0, Instr.signal 5 6),
      (0x0F182800, 0x0, Instr.arrive 5),
      (0x0F22B380, 0x0, Instr.wait 5 6 7),
      (0x0F22B381, 0x0, Instr.waitSh 5 6 7),
      (0x0F2AB000, 0x0, Instr.waita 5 6),
      (0x0F302B00, 0x0, Instr.xfer 5 6),
      (0x0F3AB000, 0x0, Instr.obqry 5 6),
      (0x0F428300, 0x0, Instr.rnkwin 5 6),
      (0x0F4828DB, 0x0, Instr.poison 5 0xdb),
      (0x0F500383, 0x0, Instr.tlwait 3 7)].all
      (fun e => decodeC e.1 e.2.1 == some e.2.2) = true := by decide +kernel

theorem test_decode_comm :
    [(0x0F602800, 0x0, Instr.cpyqWt 5),
      (0x0F62A801, 0x0, Instr.cpyqBz 5 5),
      (0x0F6A8300, 0x0, Instr.wfm 5 6),
      (0x0F728300, 0x0, Instr.mbrd 5 6),
      (0x0F782B06, 0x0, Instr.send 6 5 6),
      (0x0F7AB38E, 0x0, Instr.sendOb 6 5 6 7),
      (0x0F802800, 0x0, Instr.migr 5),
      (0x0F8AB380, 0x0, Instr.shelve 5 6 7),
      (0x0F92B380, 0x0, Instr.wcopen 5 6 7),
      (0x0F982800, 0x0, Instr.wcsel 5),
      (0x0FA2B000, 0x0, Instr.wcrel 5 6),
      (0x0FA2B381, 0x0, Instr.wcrelRp 5 6 7),
      (0x0FA82800, 0x0, Instr.wcclose 5),
      (0x0FB02B02, 0x0, Instr.mcst 2 5 6),
      (0x0FBAB000, 0x0, Instr.mcrel 5 6),
      (0x0FBAB381, 0x0, Instr.mcrelRp 5 6 7),
      (0x0FC2B391, 0x0, Instr.redput .max true 5 6 7),
      (0x0FC82800, 0x0, Instr.iordWt 5),
      (0x0FCAA801, 0x0, Instr.iordBz 5 5),
      (0x0FD28005, 0x0, Instr.scnext 5 5),
      (0x0FDAB000, 0x0, Instr.swdecl 5 6),
      (0x0FE2B380, 0x0, Instr.swbind 5 6 7),
      (0x0FE82B00, 0x0, Instr.swrun 5 6),
      (0x0FF02B00, 0x0, Instr.swwake 5 6),
      (0x0FF2B001, 0x0, Instr.swstat 5 6)].all
      (fun e => decodeC e.1 e.2.1 == some e.2.2) = true := by decide +kernel

theorem test_decode_system :
    [(0x0FFA9100, 0x0, Instr.crd 5 .wsfrz),
      (0x0FFA9101, 0x0, Instr.cwr 5 .wsfrz),
      (0x0FFAB382, 0x0, Instr.ctxrd 5 6 7),
      (0x0FFAB383, 0x0, Instr.ctxwr 5 6 7),
      (0x0FF82804, 0x0, Instr.resume 5),
      (0x0FF82805, 0x0, Instr.kill 5),
      (0x0FF82B06, 0x0, Instr.tlbinv 5 6),
      (0x0FFA8007, 0x0, Instr.rdtime 5),
      (0x0FFA8008, 0x0, Instr.rdcyc 5),
      (0x0FFAB009, 0x0, Instr.pcnt 5 6)].all
      (fun e => decodeC e.1 e.2.1 == some e.2.2) = true := by decide +kernel

theorem test_decode_alu :
    [(0x00E00000, Instr.anop),
      (0x04EACE00, Instr.add 5 6 7),
      (0x04EACE01, Instr.sub 5 6 7),
      (0x04EACE02, Instr.mul 5 6 7),
      (0x04EACE03, Instr.mulh 5 6 7),
      (0x04EACE04, Instr.mulhu 5 6 7),
      (0x04EACE05, Instr.div 5 6 7),
      (0x04EACE06, Instr.divu 5 6 7),
      (0x04EACE07, Instr.rem 5 6 7),
      (0x04EACE08, Instr.remu 5 6 7),
      (0x04EACE09, Instr.and 5 6 7),
      (0x04EACE0A, Instr.or 5 6 7),
      (0x04EACE0B, Instr.xor 5 6 7),
      (0x04EACE0C, Instr.andn 5 6 7),
      (0x04EACE0D, Instr.shl 5 6 7),
      (0x04EACE0E, Instr.shr 5 6 7),
      (0x04EACE0F, Instr.sra 5 6 7),
      (0x04EACE10, Instr.min 5 6 7),
      (0x04EACE11, Instr.max 5 6 7),
      (0x04EACE12, Instr.minu 5 6 7),
      (0x04EACE13, Instr.maxu 5 6 7),
      (0x04EAC014, Instr.mov 5 6)].all
      (fun e => decodeA e.1 == some e.2) = true := by decide +kernel

theorem test_decode_fields :
    [(0x08EADA5B, Instr.addi 5 6 0x1a5b),
      (0x0CEADA5B, Instr.andi 5 6 0x1a5b),
      (0x10EADA5B, Instr.ori 5 6 0x1a5b),
      (0x14EADA5B, Instr.xori 5 6 0x1a5b),
      (0x18EAC03B, Instr.shli 5 6 0x3b),
      (0x18EAC83B, Instr.shri 5 6 0x3b),
      (0x18EAD03B, Instr.srai 5 6 0x3b),
      (0x1CEA1A5B, Instr.movi 5 0x1a5b),
      (0x20EACFFB, Instr.lea 5 6 7 0x7 0x3b),
      (0x24EAAC04, Instr.cmp .ltu 5 5 6),
      (0x28EAB25B, Instr.cmpi .ltu 5 5 0x25b),
      (0x2CEAC000, Instr.clz 5 6),
      (0x2CEAC001, Instr.ctz 5 6),
      (0x2CEAC002, Instr.popc 5 6),
      (0x2CEAC1DB, Instr.sext 5 6 0x3b),
      (0x2CEAC1DC, Instr.zext 5 6 0x3b),
      (0x30EAD52B, Instr.bfx true 5 6 20 43),
      (0x34EAC52B, Instr.bfi 5 6 20 43),
      (0x38EACE05, Instr.sel 5 6 7 5),
      (0x3CEACE00, Instr.pand 5 6 7),
      (0x3CEACE01, Instr.por 5 6 7),
      (0x3CEACE02, Instr.pxor 5 6 7),
      (0x3CEAC003, Instr.pnot 5 6),
      (0x3CEA0004, Instr.pget 5),
      (0x3CE0A005, Instr.pset 5),
      (0x3CEA0006, Instr.lmget 5),
      (0x3CE0A007, Instr.lmset 5)].all
      (fun e => decodeA e.1 == some e.2) = true := by decide +kernel

theorem test_decode_float :
    [(0x40EACE10, Instr.fadd .bf16 5 6 7),
      (0x40EACE30, Instr.fsub .bf16 5 6 7),
      (0x40EACE50, Instr.fmul .bf16 5 6 7),
      (0x40EACE70, Instr.fmin .bf16 5 6 7),
      (0x40EACE90, Instr.fmax .bf16 5 6 7),
      (0x40EACEB0, Instr.fdiv .bf16 5 6 7),
      (0x40EAC0D0, Instr.fsqrt .bf16 5 6),
      (0x40EACEF2, Instr.fsgn .bf16 .neg 5 6 7),
      (0x40EAC110, Instr.fclass .bf16 5 6),
      (0x44EACF34, Instr.ffma .bf16 true false 5 6 7 (some 9)),
      (0x48EAAC70, Instr.fcmp .bf16 .un 5 5 6),
      (0x4CEAC090, Instr.fcvt .bf16 .toI32 5 6)].all
      (fun e => decodeA e.1 == some e.2) = true := by decide +kernel

theorem test_decode_lanes :
    [(0x60EE50C0, Instr.vadd .h true 3 4 5),
      (0x60EE50C1, Instr.vsub .h true 3 4 5),
      (0x60EE50C2, Instr.vmul .h true 3 4 5),
      (0x60EE50C3, Instr.vmin .h true 3 4 5),
      (0x60EE50C4, Instr.vmax .h true 3 4 5),
      (0x60EE00C5, Instr.vabs .h true 3 4),
      (0x60EE00C6, Instr.vneg .h true 3 4),
      (0x60EE5147, Instr.vand .b true 3 4 5),
      (0x60EE5148, Instr.vor .b true 3 4 5),
      (0x60EE5149, Instr.vxor .b true 3 4 5),
      (0x60EE514A, Instr.vshl .b true 3 4 5),
      (0x60EE514B, Instr.vshr .b true 3 4 5),
      (0x60EE514C, Instr.vsra .b true 3 4 5),
      (0x60EE5D4D, Instr.vsel .b true 3 4 5 6),
      (0x60EE014E, Instr.vmov .b true 3 4),
      (0x64EE5C60, Instr.vfma true 3 4 5 6)].all
      (fun e => decodeA e.1 == some e.2) = true := by decide +kernel

theorem test_decode_vector :
    [(0x68E250C5, Instr.vcmp (.int .h .leu) true 4 5),
      (0x6CED4080, Instr.vbcast .b 3 5),
      (0x6CED7B81, Instr.vext .b 5 3 0x3b),
      (0x6CED7B82, Instr.vins .b 3 5 0x3b),
      (0x70EE5D40, Instr.vperm .b true 3 4 5 6),
      (0x74EE00C1, Instr.vred .min .h true 3 4),
      (0x74EE0029, Instr.vamax true false 3 4),
      (0x78EE1109, Instr.vcvt .e5m2f32 3 4 1),
      (0x78EE5070, Instr.vscale true 3 4 5),
      (0x7CEE5C20, Instr.vdot true 3 4 5 6),
      (0x80EE0020, Instr.vrcp 3 4),
      (0x80EE0021, Instr.vexp2 3 4)].all
      (fun e => decodeA e.1 == some e.2) = true := by decide +kernel

theorem test_decode_tile :
    [(0xA0F54000, Instr.tcfg 5 5),
      (0xA4F40000, Instr.tzero 5),
      (0xA4F40001, Instr.trel 5),
      (0xA8E14000, Instr.mfmt 5),
      (0xACF55800, Instr.mma 5 5 6),
      (0xB0F55800, Instr.mmai 5 5 6),
      (0xB4F4D400, Instr.trowr 3 5 5),
      (0xB4F4D401, Instr.troww 5 3 5),
      (0xB8F4D400, Instr.tcolr 3 5 5),
      (0xB8F4D401, Instr.tcolw 5 3 5),
      (0xBCF54000, Instr.tstat 5 5),
      (0xC0F48000, Instr.ttrans 5 2)].all
      (fun e => decodeA e.1 == some e.2) = true := by decide +kernel

theorem test_decode_context :
    [(0x00000000, Instr.ctxCnop),
      (0x0508BEEF, Instr.cmov 1 (.imm 0xBEEF)),
      (0x09000000, Instr.cidx 1),
      (0x0D000009, Instr.cget 1 (.p 7)),
      (0x10400001, Instr.cput .aux 1),
      (0x2188BEEF, Instr.cadd 1 2 (.imm 0xBEEF)),
      (0x2588BEEF, Instr.csub 1 2 (.imm 0xBEEF)),
      (0x2988BEEF, Instr.cmul 1 2 (.imm 0xBEEF)),
      (0x2D88BEEF, Instr.cand 1 2 (.imm 0xBEEF)),
      (0x3188BEEF, Instr.cor 1 2 (.imm 0xBEEF)),
      (0x3588BEEF, Instr.cshl 1 2 (.imm 0xBEEF)),
      (0x3988BEEF, Instr.cshr 1 2 (.imm 0xBEEF)),
      (0x3D88BEEF, Instr.cmin 1 2 (.imm 0xBEEF)),
      (0x4188BEEF, Instr.cmax 1 2 (.imm 0xBEEF)),
      (0x5188BEEF, Instr.cfadd 1 2 (.imm 0xBEEF)),
      (0x5588BEEF, Instr.cfmul 1 2 (.imm 0xBEEF)),
      (0x5988BEEF, Instr.cfmax 1 2 (.imm 0xBEEF)),
      (0x604DBEEF, Instr.ccmp .geu 1 (.imm 0xBEEF)),
      (0x6402003B, Instr.cjmp .nf 0x3b),
      (0x7108BEEF, Instr.cnb 1 (.imm 0xBEEF)),
      (0x75000000, Instr.cin 1),
      (0x78400000, Instr.cout 1),
      (0x8040003B, Instr.cwe 1 0x3b),
      (0x8400000E, Instr.cws 14),
      (0x8808BEEF, Instr.cww (.imm 0xBEEF)),
      (0xA0000002, Instr.csig 2),
      (0xA4000000, Instr.cdone),
      (0xA80000EF, Instr.cflt 0xef)].all
      (fun e => decodeX e.1 == some e.2) = true := by decide +kernel
/-! ### The spec's own worked encodings -/

theorem test_decode_spec_pairs :
    [(0x00000000, 0x04062400, some (Pair.mk false ⟨0, false, .cnop⟩ ⟨0, false, .add 3 1 2⟩)),
      (0x00000000, 0x18044803, some ⟨false, ⟨0, false, .cnop⟩, ⟨0, false, .shri 2 2 3⟩⟩),
      (0x00C80013, 0x00000000, some ⟨false, ⟨0, false, .fence .dev .rel⟩, ⟨0, false, .anop⟩⟩),
      (0x01F98100, 0x00000000, some ⟨false, ⟨0, false, .crd 3 .sstat⟩, ⟨0, false, .anop⟩⟩),
      (0x00C80003, 0x00000000, none), (0x00800050, 0x00000000, none), (0x00000000, 0x60000180, none),
      (0x00000000, 0x54000000, none), (0x80000000, 0x54000000, none), (0x00380000, 0x00000000, none),
      (0x120FFFFD, 0x00000000, some ⟨false, ⟨4, true, .br 0x7FFFD⟩, ⟨0, false, .anop⟩⟩),
      (0x802B8000, 0x12345678, some ⟨false, ⟨0, false, .movl 7 0x12345678⟩, ⟨0, false, .anop⟩⟩),
      (0x80308000, 0x000000F0, some ⟨false, ⟨0, false, .movh 1 0xF0⟩, ⟨0, false, .anop⟩⟩),
      (0x80520A00, 0x00010000, some ⟨false, ⟨0, false, .stWide .w false 4 1 0x10000⟩, ⟨0, false, .anop⟩⟩)].all
      (fun e => decodePair e.1 e.2.1 == e.2.2) = true := by decide +kernel

theorem test_decode_spec_c :
    [(0x00410A00, Instr.ld .w false 2 1 0), (0x00499103, .lds .h false 3 2 3), (0x0042B702, .ld .d true 5 6 2),
      (0x00524BFF, .st .d false 4 9 0xFF), (0x00589302, .ldv false 1 2 2), (0x00691A0A, .ldvs .h true 2 3 4),
      (0x00691A01, .stvs .w false 2 3 4), (0x0071AB00, .vgath .w false 3 5 6), (0x0071AB01, .vscat .w false 3 5 6),
      (0x00C80009, .fence .clu .acq), (0x00C8001C, .fence .fab .ar), (0x00D91A00, .tld 2 3 4), (0x00D91A01, .tldBd 2 3 4),
      (0x00E11A00, .tst 2 3 4), (0x00E11A01, .tstBd 2 3 4), (0x01011800, .obnew .flag 2 3 0), (0x0102B001, .obnew .counter 5 6 0),
      (0x01011A02, .obnew .barrier 2 3 4), (0x01211A00, .wait 2 3 4), (0x01211A01, .waitSh 2 3 4), (0x01602000, .cpyqWt 4),
      (0x0161A001, .cpyqBz 3 4), (0x01C84000, .iordWt 8), (0x01C94001, .iordBz 2 8), (0x01781183, .send 3 2 3),
      (0x017A918B, .sendOb 3 5 2 3), (0x01A11800, .wcrel 2 3), (0x01A11A01, .wcrelRp 2 3 4), (0x01C11A13, .redput .maxabs true 2 3 4),
      (0x01C11A00, .redput .sum false 2 3 4), (0x00182800, .jmp 5), (0x00182801, .callr 5), (0x00180002, .ret),
      (0x00202101, .trapi 0x42), (0x00200282, .syscall 5), (0x00080005, .br 5), (0x0010000C, .call 12)].all
      (fun e => decodeC e.1 0 == some e.2) = true := by decide +kernel

theorem test_decode_spec_a :
    [(0x080ABFFF, Instr.addi 5 5 0x1FFF), (0x18045003, .srai 2 2 3), (0x200824C8, .lea 4 1 2 3 8), (0x24062402, .cmp .lt 3 1 2),
      (0x2804ABFF, .cmpi .lt 2 5 0x3FF), (0x2C04603B, .sext 2 3 7), (0x30046203, .bfx false 2 3 8 3), (0x30047203, .bfx true 2 3 8 3),
      (0x34046203, .bfi 2 3 8 3), (0x3C008005, .pset 4), (0x3C080006, .lmget 4), (0x400624E4, .fsgn .f32 .xor 3 1 2),
      (0x40062408, .fadd .f16 3 1 2), (0x44082466, .ffma .f32 true true 4 1 2 (some 3)), (0x44082401, .ffma .f32 false false 4 1 2 none),
      (0x4C042050, .fcvt .bf16 .toF32 2 1), (0x4C042070, .fcvt .bf16 .fromF32 2 1), (0x60053020, .vadd .f false 1 2 3),
      (0x6005380D, .vsel .w false 1 2 3 4), (0x64053260, .vfma true 1 2 3 1), (0x68013022, .vcmp (.flt .lt) false 2 3),
      (0x68013104, .vcmp (.int .b .ltu) false 2 3), (0x68012066, .vcmp (.flt .un) true 2 2), (0x6C054000, .vbcast .w 1 5),
      (0x6C099141, .vext .h 6 2 17), (0x6C0CA882, .vins .b 3 2 40), (0x70053900, .vperm .b false 1 2 3 4),
      (0x74050020, .vred .sum .f false 1 2), (0x740500C0, .vred .sum .h true 1 2), (0x74110029, .vamax true false 4 2),
      (0x78053103, .vcvt .f32e4m3 1 2 3), (0x7805210A, .vcvt .e4m3f32 1 2 2), (0x78053030, .vscale false 1 2 3),
      (0x7C053900, .vdot false 1 2 3 4), (0x7C053820, .vdot true 1 2 3 4), (0x80050020, .vrcp 1 2), (0x80050021, .vexp2 1 2),
      (0xA0084000, .tcfg 2 1), (0xA4040001, .trel 1), (0xAC008C00, .mma 0 2 3), (0xB0048C00, .mmai 1 2 3)].all
      (fun e => decodeA e.1 == some e.2) = true := by decide +kernel

theorem test_encode_spec :
    encode (.add 3 1 2) = some (0, 0x04062400) ∧ encode (.fence .dev .rel) = some (0x00C80013, 0) ∧
      encode (.movl 7 0x12345678) = some (0x802B8000, 0x12345678) ∧ encodeC (.sendOb 3 5 2 3) = some (0x017A918B, 0) ∧
      encodeA (.mmai 1 2 3) = some 0xB0048C00 ∧ encodeX (.cmov 1 (.reg 2)) = some 0x05200000 := by decide +kernel

/-! ### Small states: one task of region 0x40000 on core 0, slot 0, with a mapped page at 0, a local-store allocation and a
few peers -/

/-- A task whose registers are all Full and hold zero. -/
def testTask : Ctx :=
  { Ctx.init with
    tid := 7, rgn := 1, rcb := 0x40000, pc := 0x1000, privSize := 0x1000
    g := Vector.replicate 16 { val := 0, f := true, d := false, tag := none }
    v := Vector.replicate 8 { val := 0, f := true, d := false, tag := none } }

/-- Words of 8 bytes stored in order. -/
def State.words (s : State) : List (Nat × Nat) → State
  | [] => s
  | (k, v) :: l => State.words (s.store k 8 v) l

/-- The device that the tests run on. -/
def testBench : State :=
  State.words { State.reset with
    clk := 100
    cores := [(0, { Core.init with
      slots := Core.init.slots.set 0 { Slot.init with st := .ready, ctx := testTask }, alloc := [(0x40000, 0, 0x10000)] })]
    clusters := [(0, { Cluster.init with
      tlb := [{ root := 0x80000, va := 0, size := 0x10000, pa := 0x10000, w := true, x := true }] })]
    hub := { Hub.init with peers := [(5, .live, true), (6, .dead, true), (7, .live, false)], regions := [0x40000], links := [(0, true)] } }
    [(0x40008, 0x100100000001), (0x40010, 0x1000), (0x40018, 0x2000), (0x40020, 0x80000), (0x40040, 0x80000000001),
      (0x40048, 0x100000000), (0x40050, 0x700), (0x40058, 0x80000)]

/-- The device with the task changed. -/
def benchT (f : Ctx → Ctx) : State := testBench.modCtx f
/-- The device with g registers of the task set. -/
def benchG (l : List (GIx × Word)) : State := benchT fun c => l.foldl (fun c e => c.setG e.1 e.2) c

/-- Register `d` of the task after one instruction, its status, and its PC. -/
def resultG (o : Host.Outcome State Fault Refusal) (d : GIx) : Option (Word × Flags × Word) := match o with
  | .next t => some (t.ctx.g[d].val, t.ctx.sstat, t.ctx.pc)
  | _ => none
/-- Register `d` of the task after one instruction, and its status. -/
def resultV (o : Host.Outcome State Fault Refusal) (d : VIx) : Option (VWord × Flags) := match o with
  | .next t => some (t.ctx.v[d].val, t.ctx.sstat)
  | _ => none
/-- The cause, address and PC of the record that one instruction leaves, if the slot is in state 8. -/
def trapOf (o : Host.Outcome State Fault Refusal) : Option (BitVec 8 × Word × Word) := match o with
  | .next t => if t.st = .faulted then t.ctx.trap.map fun r => (r.cause, r.addr, r.pc) else none
  | _ => none
/-- The state of the slot after one instruction. -/
def stOf (o : Host.Outcome State Fault Refusal) : Option SlotSt := match o with
  | .next t => some t.st
  | _ => none

/-- Equality of checks' answers is decidable. -/
def decE {ε α : Type} [DecidableEq ε] [DecidableEq α] : (a b : Except ε α) → Decidable (a = b)
  | .ok a, .ok b => if h : a = b then .isTrue (h ▸ rfl) else .isFalse fun e => h (by cases e; rfl)
  | .error a, .error b => if h : a = b then .isTrue (h ▸ rfl) else .isFalse fun e => h (by cases e; rfl)
  | .ok _, .error _ => .isFalse nofun
  | .error _, .ok _ => .isFalse nofun

/-- An access of the pair before the PC, with nothing performed yet. -/
def testAcc (id : Nat) (op : AccOp) (park : Bool) : Access :=
  { id := id, pc := 0xFF8, pair := 0, op := op, park := park, resends := 0, lv := none, rid := id, done := 0, bad := none }

/-- Lanes of 32 bits from lane 0, the rest zero. -/
def ofLanes' : List Nat → Nat
  | [] => 0
  | x :: l => x + 2 ^ 32 * ofLanes' l

/-! ### Worked values of the spec -/

theorem test_div_truncates :
    resultG (exec (.div 3 1 2) (benchG [(1, -7), (2, 2)])) 3 = some (-3, 0, 0x1008) ∧
      resultG (exec (.rem 3 1 2) (benchG [(1, -7), (2, 2)])) 3 = some (-1, 0, 0x1008) := by decide +kernel
theorem test_divu_by_zero :
    resultG (exec (.divu 3 1 2) (benchG [(1, 7)])) 3 = some (0xFFFFFFFFFFFFFFFF, Flag.dz, 0x1008) ∧
      resultG (exec (.remu 3 1 2) (benchG [(1, 7)])) 3 = some (7, Flag.dz, 0x1008) := by decide +kernel
theorem test_bfx_spec :
    resultG (exec (.bfx false 2 3 8 3) (benchG [(3, 0xA5C3)])) 2 = some (5, 0, 0x1008) ∧
      resultG (exec (.bfx true 2 3 8 3) (benchG [(3, 0xF00)])) 2 = some (0xFFFFFFFFFFFFFFFF, 0, 0x1008) := by decide +kernel
theorem test_fcvt_half_even :
    resultG (exec (.fcvt .bf16 .fromF32 2 1) (benchG [(1, 0x3F808000)])) 2 = some (0x3F80, Flag.nx, 0x1008) ∧
      resultG (exec (.fcvt .f32 .toI32 2 1) (benchG [(1, 0x4F000000)])) 2 = some (0x7FFFFFFF, Flag.nv ||| Flag.satur, 0x1008) := by
  decide +kernel
theorem test_add_saturates :
    resultG (exec (.add 3 1 2) (((benchG [(1, 0x7FFFFFFFFFFFFFFF), (2, 1)]).modCtx fun c => { c with rnd := 4 }))) 3 =
      some (0x7FFFFFFFFFFFFFFF, Flag.satur ||| Flag.of, 0x1008) ∧
      resultG (exec (.add 3 1 2) (benchG [(1, 0x7FFFFFFFFFFFFFFF), (2, 1)])) 3 = some (0x8000000000000000, 0, 0x1008) := by
  decide +kernel
theorem test_lea_source_is_destination :
    resultG (exec (.lea 1 1 2 3 8) (benchG [(1, 0x100), (2, 0x10)])) 1 = some (0x188, 0, 0x1008) := by decide +kernel
theorem test_vamax_spec :
    resultV (exec (.vamax true false 4 2)
      (benchT fun c => c.setV 2 (BitVec.ofNat 512 (ofLanes' [0x40400000, 0xC1A00000, 0x3F000000, 0x7FC00000])))) 4 =
      some (BitVec.ofNat 512 (ofLanes' [0x41A00000, 8]), Flag.nv) := by decide +kernel
theorem test_vscale_spec :
    resultV (exec (.vscale false 6 2 5)
      (benchT fun c => (c.setV 2 (BitVec.ofNat 512 (ofLanes' [0x40400000, 0xC1A00000, 0x3F000000, 0x7FC00000]))).setV 5
        (BitVec.ofNat 512 (ofLanes' (List.replicate 16 0x83))))) 6 =
      some (BitVec.ofNat 512 (ofLanes' [0x42400000, 0xC3A00000, 0x41000000, 0x7FC00000]), 0) := by decide +kernel
theorem test_vcvt_spec :
    (resultV (exec (.vcvt .f32e4m3 7 6 6)
      (benchT fun c => c.setV 6 (BitVec.ofNat 512 (ofLanes' [0x42400000, 0xC3A00000, 0x41000000, 0x7FC00000])))) 7).map
      (fun r => (r.1.extractLsb' 0 32, r.1.extractLsb' 128 32, r.1.extractLsb' 256 256)) = some (0x7F50FA64, 0x7F50FA64, 0) := by
  decide +kernel
theorem test_vred_order :
    resultV (exec (.vred .sum .f false 1 2)
      (benchT fun c => c.setV 2 (BitVec.ofNat 512 (ofLanes' [0x3F800000, 0x4B800000, 0xCB800000, 0x3F800000])))) 1 =
      some (0x3F800000, Flag.nx) := by decide +kernel
theorem test_vrcp_spec :
    (resultV (exec (.vrcp 1 2) (benchT fun c => c.setV 2 0x40400000)) 1).map (fun r => (r.1.extractLsb' 0 32, r.2)) =
      some (0x3EAAAAAB, Flag.nx ||| Flag.dz) := by decide +kernel
/-- Words of 4 bytes stored in order. -/
def State.words4 (s : State) (key : Nat) : List Nat → State
  | [] => s
  | v :: l => State.words4 (s.store key 4 v) (key + 4) l

/-- The core with one request at the matrix unit, an operand A at offset 0 and B at offset 0x100 of the scratchpad, all of
whose elements have been read. -/
def testMx (op : MxOp) (mfmt : BitVec 15) (rnd : BitVec 5) (shape : Shape) (a b : List Nat) : State :=
  let s := State.words4 (State.words4 testBench (padBase 0) a) (padBase 0 + 0x100) b
  let r : MxReq := { id := 9, slot := 0, tid := 7, pc := 0x1000, pair := 0, op := op, rnd := rnd, mfmt := mfmt, shape := shape
                     started := true, data := none, seen := [], got := [] }
  let ps := r.reads 0
  (s.modCore 0 fun c => { c with
    shapes := c.shapes.set 1 shape
    mxq := [{ r with seen := List.range ps.length, got := ps.map fun p => BitVec.ofNat 64 (s.load p.1 p.2.1) }] }).modCtx fun c => { c with
    accs := [{ testAcc 9 (.matrix 9) false with pc := 0x1000 }] }
/-- A shape in use by slot 0. -/
def testShape (rows cols : BitVec 4) (typ : BitVec 2) : Shape :=
  { rows := rows, cols := cols, typ := typ, cfg := true, inuse := true, dirty := false, owner := 0 }
/-- An element of tile 1 after an event, and the task's status. -/
def element1 (o : Host.Outcome State Fault Refusal) (i j : Fin 16) : Option (BitVec 32 × Flags) := match o with
  | .next t => some ((((t.coreAt 0).tiles[(1 : Fin 8)])[i])[j], t.ctx.sstat)
  | _ => none

/-- The small product of chapter 07. -/
theorem test_mma_small_product :
    let o := exec (.matrixResultWrite 0 false) (testMx (.mma 1 0 0x100) 0x122 0 (testShape 1 1 0)
      [0x17F, 3, 2, 0x180, 3, 0] [0x17F, 1, 0, 0x17F, 3, 0])
    element1 o 0 0 = some (0x3F800000, 0) ∧ element1 o 0 1 = some (0, 0) ∧ element1 o 1 0 = some (0x40000000, 0) ∧
      element1 o 1 1 = some (0x40800000, 0) := by decide +kernel

/-- The scale sums beyond FP32 of chapter 04: 8 × 8 under two scales of 0xFE. -/
theorem test_mma_overflow :
    let o := fun r => element1 (exec (.matrixResultWrite 0 false) (testMx (.mma 1 0 0x100) 0x155 r (testShape 0 0 0)
      [0x4FE, 0, 0, 0, 1, 0] [0x4FE, 0, 0, 0, 1, 0])) 0 0
    o 0 = some (0x7F800000, Flag.of ||| Flag.nx) ∧ o 4 = some (0x7F7FFFFF, Flag.of ||| Flag.nx ||| Flag.satur) ∧
      o 1 = some (0x7F7FFFFF, Flag.of ||| Flag.nx) := by decide +kernel

/-- R143: a header that is not the format's is a late fault, and the tile stays. -/
theorem test_mma_bad_header :
    (match exec (.matrixResultWrite 0 false) (testMx (.mma 1 0 0x100) 0x122 0 (testShape 0 0 0) [0x27F, 3, 2] [0x17F, 1, 0]) with
    | .next t => some (t.ctx.late.map fun r => (r.cause, r.pc, r.late))
    | _ => none) = some [(0x1B, 0x1000, true)] := by decide +kernel
/-! ### Witnesses: scalar and vector results, control -/

/-- A read-bound port at g10 that has given its last element. -/
def spentPort : Port :=
  { wr := false, sx := false, size := 2, base := 0x100, stride := 4, count := 1, pos := 1, moved := 1, fifo := []
    halted := false, pc := 0, pair := 0, no := 0 }
/-- The three cases of `Issues`: the registers let the pair issue, one awaits its value, a port is past its end. -/
def portBench : State := benchT fun c => { c with ports := c.ports.set 0 (some spentPort) }
def pendBench : State := benchT fun c => (c.pendG 1 9).pendV 1 9

theorem test_meets_IntegerAluResults :
    testBench.Open [1, 2] [] [3] [] ∧ anyPark (pendBench.gates [1, 2] [] [3] []) = true ∧
      anyPark (portBench.gates [10, 2] [] [3] []) = false ∧ firstTrap (portBench.gates [10, 2] [] [3] []) = some ⟨0x30, 0, 0⟩ := by
  unfold State.Open; decide +kernel
theorem test_meets_ImmediateResults :
    testBench.Open [1] [] [1] [] ∧ anyPark (pendBench.gates [0] [] [1] []) = true ∧
      anyPark (portBench.gates [1] [] [10] []) = false ∧ firstTrap (portBench.gates [1] [] [10] []) = some ⟨0x30, 0, 0⟩ := by
  unfold State.Open; decide +kernel
theorem test_meets_ComparePredicateResults :
    testBench.Open [15] [] [15] [] ∧ (0 : PIx) ≠ 15 ∧
      (1 : Word) = (BitVec.allOnes 64 >>> (63 - (0 : BitVec 6).toNat)) <<< (0 : BitVec 6).toNat ∧
      (0xFFFFFFFFFFFFFFFF : Word) = (BitVec.allOnes 64 >>> (63 - (63 : BitVec 6).toNat)) <<< (0 : BitVec 6).toNat := by
  unfold State.Open; decide +kernel
theorem test_meets_ScalarFloatResults :
    testBench.Open [1, 2, 15] [] [3] [] ∧ anyPark (pendBench.gates [1, 2] [] [] []) = true ∧
      firstTrap (portBench.gates [10, 2] [] [] []) = some ⟨0x30, 0, 0⟩ := by unfold State.Open; decide +kernel
/-- Codes of a format that its facts are about: NaNs of both kinds, infinities, zeros and finite values. -/
def FloatCodes (F : Fmt) (inf one neg : Nat) : Prop :=
      (neg + inf + 1 < 2 ^ (F.eb + F.mb + 1) ∧ IsSignalling F (inf + 1) ∧ IsSignalling F (neg + inf + 2 ^ (F.mb - 1) - 1)) ∧
      (IsNan F (inf + 2 ^ (F.mb - 1)) ∧ ¬IsSignalling F (inf + 2 ^ (F.mb - 1))) ∧ (¬IsNan F inf ∧ IsInfinite F inf ∧ IsInfinite F (neg + inf)) ∧
      (IsFinite F one ∧ ¬IsNan F one ∧ ¬IsSignalling F one ∧ mantissa F false one = 2 ^ F.mb) ∧
      (IsFinite F neg ∧ mantissa F false neg = 0 ∧ signField F neg = 1) ∧ (IsFinite F 1 ∧ mantissa F false 1 = 1 ∧ mantissa F true 1 = 0) ∧
      (numericKey F false 0 = numericKey F false neg ∧ signField F 0 ≠ signField F neg ∧ numericKey F false (neg + one) < numericKey F false 0) ∧
      (2 ^ 80 * mantissa F false one ≤ mantissa F false one * 2 ^ 80 ∧ mantissa F false one * 2 ^ 80 < (2 ^ 80 + 1) * mantissa F false one)
theorem test_meets_ScalarFloatCodes :
    FloatCodes .fp32 0x7F800000 0x3F800000 0x80000000 ∧ FloatCodes .fp16 0x7C00 0x3C00 0x8000 ∧ FloatCodes .bf16 0x7F80 0x3F80 0x8000 ∧
    [FFmt.f32, .f16, .bf16].map fmtOf = [.fp32, .fp16, .bf16] := by
  refine ⟨?_, ?_, ?_, rfl⟩ <;> unfold FloatCodes IsSignalling IsNan IsInfinite IsFinite <;> refine ⟨?_, ?_, ?_, ?_, ?_, ?_, ?_, ?_⟩ <;> decide +kernel
theorem test_meets_ScalarFloatRounding :
    (unitExp (fmtOf .f16) 0x3C00 - (0 : Nat)) % 2 = 0 ∧
    ((unitExp .fp32 0x3F800000 - (1 : Nat)) % 2 = 0 ∧ 2 ^ 52 * 2 ^ 52 ≤ mantissa .fp32 false 0x3F800000 * 2 ^ (1 + 80) ∧
      mantissa .fp32 false 0x3F800000 * 2 ^ (1 + 80) < (2 ^ 52 + 1) * (2 ^ 52 + 1)) ∧
    (∀ mode ∈ [RMode.rne, .rtz, .rdn, .rup], ∀ neg ∈ [true, false],
      (roundAt mode neg 3 (-1) false 0).2 = true ∧ 3 % 2 ^ 1 ≠ 0 ∧ (0 : Nat) < 1 ∧ (1 : Nat) ≠ 0) ∧
    (2 * ((roundAt .rne false 3 (-1) false 0).1 * 2 ^ 1) = 2 * 3 + 2 ^ 1) ∧ (2 * 5 = 2 * ((roundAt .rne false 5 (-1) false 0).1 * 2 ^ 1) + 2 ^ 1) ∧
    (-127 < 1 - ((fmtOf .f32).bias : Int) ∧ 1 - ((fmtOf .f32).bias : Int) ≤ -126 ∧ (127 : Int) ≤ (fmtOf .f32).bias ∧ ((fmtOf .f32).bias : Int) < 128) ∧
    (2 : Int) ^ (32 - 1) - 1 < 2 ^ 31 ∧ (-2 : Int) ^ 31 - 1 < -2 ^ (32 - 1) ∧ Rnd.ofBits 8 = ⟨.rne, false, true, false⟩ := by
  decide +kernel
theorem test_meets_VectorLaneResults :
    (true && testBench.ctx.v[(7 : VIx)].waits) = false ∧ testBench.Open [] [1, 2, 7] [] [7] ∧
      (true && pendBench.ctx.v[(1 : VIx)].waits) = true ∧ anyPark (pendBench.gates [] [1] [] [2]) = true ∧
      (8 = 8 ∧ 63 < 512 / 8) ∧ (32 = 32 ∧ 15 < 512 / 32) ∧
      (Lane.b ≠ .f ∧ 255 < 2 ^ Lane.b.bits) ∧ (Rnd.ofBits 4).sat = true ∧ (Rnd.ofBits 0).sat = false := by
  unfold State.Open; decide +kernel
theorem test_meets_VectorMoveResults :
    pendBench.ctx.v[(1 : VIx)].waits = true ∧ testBench.ctx.v[(1 : VIx)].waits = false ∧ testBench.Open [0] [] [] [1] ∧
      testBench.Open [] [7] [15] [] ∧ testBench.Open [] [0, 7] [] [] := by unfold State.Open; decide +kernel
theorem test_meets_VectorReductionResults :
    (false && testBench.ctx.v[(0 : VIx)].waits) = false ∧ testBench.Open [] [0, 7] [] [0] ∧
      anyPark (pendBench.gates [] [1] [] [0]) = true := by unfold State.Open; decide +kernel

theorem test_meets_ControlTransfers :
    (testBench.gv 1).toNat % 8 = 0 ∧ testBench.Open [1] [] [8] [] ∧ ((benchG [(1, 7)]).gv 1).toNat % 8 ≠ 0 ∧
      (benchG [(1, 7)]).Open [1] [] [8] [] ∧ (testBench.gv 8).toNat % 8 = 0 ∧ testBench.Open [8] [] [] [] ∧
      ((benchG [(8, 4)]).gv 8).toNat % 8 ≠ 0 ∧ (benchG [(8, 4)]).Open [8] [] [] [] ∧
      ({ testTask with cmask := 0xC00001 } : Ctx).cmask.getLsbD 0 = true ∧
      ({ testTask with cmask := 0xC00001 } : Ctx).cmask.getLsbD 15 = false ∧
      ({ testTask with cmask := 0xC00001 } : Ctx).cmask.getLsbD (16 + 7) = true ∧
      ({ testTask with cmask := 0xC00001 } : Ctx).cmask.getLsbD 16 = false := by unfold State.Open; decide +kernel
/-- A thread with one load outstanding. -/
def loadingBench : State := benchT fun c => { c.pendG 2 5 with
  accs := [testAcc 5 (.loadG 2 8 false (.mem 0x10100) 0x100) false] }
/-- The same bench for a redundant task: bit 33 of the region's word 8 is RDT. -/
def rdtBench (trail : Bool) : State := (testBench.store 0x40008 8 0x100300000001).modCtx fun c => { c with trail := trail }
theorem test_meets_DeliberateStops :
    testBench.rdt = false ∧ testBench.ctx.accs = [] ∧ testBench.ctx.undrained = false ∧ testBench.trailBusy 0 0 = false ∧
      loadingBench.rdt = false ∧ loadingBench.ctx.accs ≠ [] ∧ (rdtBench true).rdt = true ∧ (rdtBench true).ctx.trail = true ∧ (rdtBench false).rdt = true ∧
      (rdtBench false).ctx.trail = false := by decide +kernel
/-- A halting task that owes a fragment and a seat; and one whose region has a parent and an heir vector. -/
def owingBench : State := (State.words testBench [(0x40000, 0x50000), (0x40038, 0x900)]).modCtx fun c => { c with
  obls := [{ ref := .local_ 0x10200, addr := 0x200, ph := 0, rank := 9, ar := 0, m := 1, kind := 1 },
    { ref := .local_ 0x400C0, addr := 0, ph := 0, rank := 1, ar := 0, m := 1, kind := 1 }] }
theorem test_meets_HaltLeaves :
    (let s := testBench
     s.isRdt (s.ctxAt 0 0).rcb = false ∧ s.handlesOf 7 = [] ∧ s.noticeWaits 7 = false ∧
       (s.ctxAt 0 0).obls.filter (fun o => !(o.ref == .local_ (0x40000 + 0xC0))) = []) ∧
      (let s := owingBench
       s.isRdt (s.ctxAt 0 0).rcb = false ∧ s.handlesOf 7 = [] ∧ (s.ctxAt 0 0).start = .launched ∧ s.heirOf 64 (s.ctxAt 0 0).rcb = some 0x40000 ∧
         (s.ctxAt 0 0).obls.filter (fun o => !(o.ref == .local_ (0x40000 + 0xC0))) ≠ []) := by decide +kernel
theorem test_meets_TrapEntryAndReturn :
    (testBench.ctxAt 0 0).trail = false ∧ (1 : Fin 16) ≠ 0 ∧
      ((testBench.trapNow ⟨0x01, 0, 0⟩).slotAt 0 0).st = .faulted ∧ (testBench.slotAt 0 0).st ≠ .faulted := by decide +kernel
theorem test_meets_ControlAndTimeReads :
    testBench.rdt = false ∧ testBench.Open [] [] [3] [] ∧ ((benchT fun c => { c with mode := true }).ctx.mode = true) ∧
      testBench.Open [1] [] [3] [] ∧ testBench.gv 1 = BitVec.ofNat 64 0 ∧ (benchG [(1, 7)]).gv 1 = BitVec.ofNat 64 7 ∧
      8 ≤ ((benchG [(1, 8)]).gv 1).toNat := by unfold State.Open; decide +kernel
theorem test_meets_ControlRegisterWrites :
    testBench.rdt = false ∧ testBench.Open [1] [] [] [] ∧ testBench.ctx.mode = false ∧
      [CReg.rnd, .cmask, .sstat, .ecxsel, .lm, .dpat, .mbstat, .minrank, .tid, .rgn, .wch, .pc, .mode, .mfmt, .tline 3, .wsphase].all
        (fun r => sysReg r == false) = true ∧ (benchT fun c => { c with mode := true }).ctx.mode = true ∧
      testBench.Open [] [] [1] [] ∧ testBench.Open [1, 2] [] [] [] := by unfold State.Open; decide +kernel
/-! ### Witnesses: memory -/

/-- The bench with a page of the weight store of die 0 at 0x10000, with a page of stacked DRAM at 0x20000, and with the
bit of the core that freezes the store. -/
def weightBench (f : Bool) : State :=
  (testBench.modCluster 0 fun c => { c with tlb := c.tlb ++
    [{ root := 0x80000, va := 0x10000, size := 0x10000, pa := 0x8000000000, w := true, x := false },
      { root := 0x80000, va := 0x20000, size := 0x10000, pa := 0x30000, w := false, x := true }] }).modCore 0 fun c =>
    { c with frz := c.frz.set 0 f }
/-- The bench with a live counted channel of the task to peer 5. -/
def chanBench : State := (testBench.modDie 0 fun d => { d with
  chans := [(0, { tid := 7, core := 0, failed := false, group := false, reliable := false, dest := 5, off := 0, ctr := 3, gen := 0
                  counted := 0, unrel := 0, released := 0, rank := 0, opening := [], opened := [(5, 3)], owes := true, declined := none
                  live := true })] }).modCtx fun c => { c with wch := 0x8000 }

theorem test_meets_ScalarAccessesIssue :
    testBench.rdt = false ∧ testBench.Open [1] [] [2] [] ∧ testBench.Open [1, 2] [] [] [] ∧
      testBench.element testBench.who 0xFFF8 8 8 .read = .ok (.mem 0x1FFF8) ∧
      testBench.element testBench.who 0xFFFF 1 1 .read = .ok (.mem 0x1FFFF) ∧
      testBench.element testBench.who 0xFFFC 8 8 .read = .error ⟨0x05, 0xFFFC, 0⟩ ∧
      testBench.reach testBench.who .read [0xFFF8] = [.mem 0x1FFF8] ∧
      testBench.MayAccess false false 8 [.mem 0x1FFF8] ∧ testBench.MayAccess true true 8 [.mem 0x1FFF8] ∧
      ¬loadingBench.MayAccess false false 8 [.mem 0x1FFF8] ∧ ¬loadingBench.MayAccess true false 1 [.mem 0x10107] ∧
      loadingBench.MayAccess true false 1 [.mem 0x10108] ∧
      testBench.relaxedBlocked true = false ∧ testBench.plainBlocked = false ∧
      (weightBench true).element testBench.who 0x10000 1 1 .write = .ok (.mem 0x8000000000) ∧
      (weightBench true).frozen 0 (.mem 0x8000000000) = true ∧ (weightBench false).frozen 0 (.mem 0x803FFFFFFF) = false ∧
      testBench.countable [.mem 0x1FFFF] = true ∧ chanBench.countable [.fab 5 0] = true ∧ testBench.countable [.fab 5 0] = false := by
  unfold State.Open State.MayAccess; exact @of_decide_eq_true _ (letI := @decE; inferInstance) (by decide +kernel)
theorem test_meets_VectorAccessesIssue :
    testBench.Open [1] [] [] [2] ∧ testBench.Open [1, 2] [3] [] [] ∧
      testBench.elements testBench.who 64 .read [0xFFC0] = .ok [.mem 0x1FFC0] ∧
      testBench.elements testBench.who 2 .read [0xFFFE, 0x10000] = .error ⟨0x05, 0x10000, 0⟩ ∧
      (match storeOp testBench 1 (List.replicate 64 0xFFFF) (List.range 64) with | .ok _ => true | .error _ => false) = true ∧
      storeOp (weightBench true) 4 [0, 0x10000] [1, 2] = .error ⟨0x20, 0x10000, 0⟩ := by unfold State.Open; exact @of_decide_eq_true _ (letI := @decE; inferInstance) (by decide +kernel)
theorem test_meets_AddressChecks :
    testBench.resolve testBench.who 0x1000000000000000 .read = .error 0x04 ∧
      testBench.resolve testBench.who 0xFFFF .read = .ok (.mem 0x1FFFF) ∧
      testBench.resolve testBench.who (0xFFFF + BitVec.ofNat 64 (8 - 1)) .read = .error 0x05 ∧
      testBench.resolve testBench.who (0xFFF1 + BitVec.ofNat 64 (8 - 1)) .read = .ok (.mem 0x1FFF8) ∧
      (0xFFF1 : Word).toNat % 8 ≠ 0 ∧ (0xFFF0 : Word).toNat % 8 = 0 ∧
      (0xF000000000001000 : Word).toNat / 2 ^ 60 = 15 ∧ (0xF000000000001000 : Word).toNat / 2 ^ 32 % 2 ^ 28 = 0 ∧
      testBench.who.privSize ≤ (0xF000000000001000 : Word).toNat % 2 ^ 32 ∧
      testBench.resolve testBench.who 0xF000000000000FFF .write = .ok (.mem 0x10FFF) ∧
      testBench.resolve testBench.who 0xE00000000000FFFF .write = .ok (.mem (localBase 0 + 0xFFFF)) ∧
      testBench.resolve testBench.who 0xE000000000010000 .write = .error 0x06 ∧
      (weightBench false).resolve testBench.who 0x20000 .write = .error 0x06 ∧
      (weightBench false).resolve testBench.who 0x1FFFF .fetch = .error 0x06 ∧
      testBench.peerCheck ((0x8005000000000000 : Word).toNat / 2 ^ 48 % 2 ^ 12) = none ∧
      testBench.peerCheck ((0x8006000000000000 : Word).toNat / 2 ^ 48 % 2 ^ 12) = some 0x0B ∧
      testBench.peerCheck 7 = some 0x09 ∧ testBench.peerCheck 8 = some 0x08 := by exact @of_decide_eq_true _ (letI := @decE; inferInstance) (by decide +kernel)
/-- The bench with one access of the task outstanding. -/
def accBench (op : AccOp) (f : Ctx → Ctx) : State := benchT fun c => f { c with
  accs := [testAcc 5 op true] }
/-- That access. -/
def accOf (op : AccOp) : Access := testAcc 5 op true
/-- An atomic addition of 1 to a word. -/
def addOne : AtomOp := { k := .add, w := 4, signed := true, x := 1, y := 0, rnd := 0 }
theorem test_meets_AccessesPerform :
    [AccOp.loadG 2 8 true (.mem 0x1FFF8) 0xFFF8, .loadV 7 64 [(0, .mem 0x1FFC0)] [0xFFC0], .store 8 [(.mem 0x1FFF8, 3)] 0 [0xFFF8],
        .atomic 2 addOne (.mem 0x1FFFC) 0xFFFC].all
      (fun op => ((accBench op id).ctxAt 0 0).accs.find? (fun x => x.id == 5) == some (accOf op)) = true ∧
      testBench.dataFault 0x1FFF8 8 false = none ∧ testBench.dataFault 0x1FFC0 64 false = none ∧
      testBench.dropsStore 0x1FFF8 8 = false ∧ addOne.w = 4 ∧
      (accOf (.store 8 [(.mem 0x1FFF8, 3)] 0 [0xFFF8])).done = 0 ∧ (accOf (.store 8 [(.mem 0x1FFF8, 3)] 0 [0xFFF8])).bad = none := by exact @of_decide_eq_true _ (letI := @decE; inferInstance) (by decide +kernel)
/-- A poisoned unit of stacked DRAM. -/
def poisonBench (op : AccOp) (f : Ctx → Ctx) : State := (accBench op f).foundError 0x10100 8
/-- Accesses with several elements left: lanes in any order of numbers, lane 15 among them; a vector store before its last element
and at it, whole or with an element that failed; and a 64-byte store before its last lane and at it. -/
theorem test_meets_AccessesPerformElements :
    (∀ e ∈ [(0, [(15, Home.mem 0x1FFFC), (3, .mem 0x1FFC0)]), (15, [(0, Home.mem 0x1FFC0)])],
      let op := AccOp.loadV 7 4 ((e.1, .mem 0x1FFC4) :: e.2) [0xFFC4, 0xFFFC, 0xFFC0]
      let s := (accBench op id).modCtx (·.pendV 7 5)
      ((s.ctxAt 0 0).accs.find? (fun x => x.id == 5) == some (accOf op)) = true ∧ s.dataFault 0x1FFC4 4 false = none ∧ e.2.length ≠ 0 ∧
        e.2.all (fun x => x.1 != e.1) = true ∧ (s.ctxAt 0 0).v[(7 : VIx)].tag = some 5 ∧ e.1 < 64 / 4) ∧
      (let op := AccOp.store 8 [(.mem 0x1FFE8, 3), (.mem 0x1FFF8, 4)] 0 [0xFFE8, 0xFFF8]
       ((accBench op id).ctxAt 0 0).accs.find? (fun x => x.id == 5) = some (accOf op) ∧ testBench.dropsStore 0x1FFE8 8 = false ∧
         (accOf op).done + 1 < 2 ∧ ({ accOf op with done := 1, bad := some (0x21, 0xFFE8) } : Access).done + 1 = 2) ∧
      (let op := AccOp.store 64 [(.mem 0x1FFC0, 3)] 0 [0xFFC0]
       ((accBench op id).ctxAt 0 0).accs.find? (fun x => x.id == 5) = some (accOf op) ∧ testBench.dropsStore 0x1FFC0 64 = false ∧
         testBench.dataFault 0x1FFC0 64 false = none ∧ (accOf op).done < 15 ∧ (accOf op).bad = none ∧
         ({ accOf op with done := 15 } : Access).done = 15) := by decide +kernel
theorem test_meets_ResultsArrive :
    (loadingBench.slotAt 0 0).st ≠ .settle ∧ (loadingBench.ctxAt 0 0).trail = false ∧ (loadingBench.ctxAt 0 0).portOf 2 = none ∧ (loadingBench.ctxAt 0 0).g[(2 : GIx)].tag = some 5 ∧
      (loadingBench.ctxAt 0 0).g[(2 : GIx)].d = false ∧ ((loadingBench.modCtx (·.killG 2)).ctxAt 0 0).g[(2 : GIx)].d = true ∧
      ((loadingBench.modCtx (·.killG 2)).ctxAt 0 0).g[(2 : GIx)].tag = some 5 ∧ (3 : GIx) ≠ 2 ∧
      (let s := poisonBench (.loadG 2 8 true (.mem 0x10100) 0x100) (·.pendG 2 5)
       (s.ctxAt 0 0).accs.find? (fun x => x.id == 5) = some (accOf (.loadG 2 8 true (.mem 0x10100) 0x100)) ∧
         spaceOf 0x10100 = .dram 0 ∧ s.poisoned 0x10100 8 = true ∧ (s.ctxAt 0 0).g[(2 : GIx)].tag = some 5) := by exact @of_decide_eq_true _ (letI := @decE; inferInstance) (by decide +kernel)
theorem test_meets_StoredBytesRead :
    testBench.Sound ∧ testBench.dropsStore 0x1FFFF 1 = false ∧ 255 < 256 ^ 1 ∧ testBench.dropsStore 0x10100 16 = false ∧
      2 ^ 128 - 1 < 256 ^ 16 ∧ (testBench.foundError 0x10100 1).dropsStore 0x1013F 1 = true ∧
      (testBench.foundError 0x10100 1).dropsStore 0x10100 64 = false ∧ (testBench.foundError 0x10100 1).dropsStore 0x10140 1 = false ∧
      spaceOf 0x1013F = .dram 0 ∧ (testBench.foundError 0x10100 1).poison.contains (0x1013F / 64 * 64) = true := by
  unfold State.Sound; decide +kernel
theorem test_meets_AtomicResults : (4 = 4 ∨ 4 = 8) ∧ 2 ^ 32 - 1 < 2 ^ (8 * 4) ∧ (8 = 4 ∨ 8 = 8) ∧ 2 ^ 64 - 1 < 2 ^ (8 * 8) := by
  decide
theorem test_meets_AtomicsIssue :
    testBench.rdt = false ∧ testBench.Open [1, 2] [] [3] [] ∧ testBench.Open [1, 14, 15] [] [3] [] ∧
      testBench.element testBench.who 0x3 4 4 .write = .error ⟨0x07, 0x3, 0⟩ ∧ testBench.relaxedBlocked true = false ∧
      testBench.element testBench.who 0xFFFC 4 4 .write = .ok (.mem 0x1FFFC) ∧ inScope 0 .core (.mem 0x1FFFC) = false ∧
      inScope 0 .die (.mem 0x1FFFC) = true ∧ inScope 0 .core (.mem (localBase 0)) = true ∧ inScope 0 .dev (.fab 5 0) = false ∧
      testBench.plainBlocked = false ∧ atomicHome (.mem 0x1FFFC) = true ∧ atomicHome (.mem 0x8000000000) = false ∧
      (weightBench false).element testBench.who 0x10000 8 8 .write = .ok (.mem 0x8000000000) ∧
      testBench.overlaps 4 [.mem 0x1FFFC] = false ∧ testBench.outsideScope .core 0xFFFC = true ∧ testBench.outsideScope .die 0xFFFC = false ∧
      loadingBench.plainBlocked = true ∧ loadingBench.overlaps 4 (loadingBench.reach loadingBench.who .write [0x100]) = true := by unfold State.Open; exact @of_decide_eq_true _ (letI := @decE; inferInstance) (by decide +kernel)
/-- The result tag that the next operation would take is in use. -/
def tagBench : State := { loadingBench with seq := 1029 }
theorem test_meets_TagBusy : tagBench.tagBusy = true ∧ loadingBench.tagBusy = false ∧ tagBench.Open [1, 15] [] [3] [] ∧ tagBench.rdt = false := by
  unfold State.Open; decide +kernel
/-- A port at g10. -/
def benchPort (p : Port) : State := benchT fun c => { c with ports := c.ports.set 0 (some p) }
/-- An element that the pair at 0x1000 has pushed. -/
def testElem : Elem := { val := 3, pc := 0x1000, pair := 0, held := [], heldPorts := [] }
/-- A write port with elements. -/
def fullPort (n : Nat) : Port := { spentPort with wr := true, count := 9, pos := n, fifo := List.replicate n testElem }
/-- A read port with elements ahead. -/
def readPort (n : Nat) : Port := { spentPort with count := 9, pos := 0, moved := n, fifo := List.replicate n testElem }
/-- An answer without an error. -/
def testAnswer : Answer := { err := none, words := [] }
/-- The state once the home that the pair has asked has answered. -/
def answeredBench (s : State) : State := s.modCtx fun c => { c with answered := some testAnswer }
/-- A load, or an element of a write port, that a fence holds later accesses for. -/
def fencedBench (f : Ctx → Ctx) : State := loadingBench.modCtx fun c => f { c with
  ports := c.ports.set 3 (some { fullPort 1 with fifo := [{ testElem with id := 4 }] }) }
theorem test_meets_FenceHolds :
    (fencedBench id).rdt = false ∧ (fencedBench id).Open [1, 3] [] [4] [] ∧ (fencedBench id).ctx.accs.map (·.id) = [5] ∧ (fencedBench id).ctx.due = [4] ∧
      (fencedBench fun c => { c with holdAll := [5] }).ctx.holdAll = [5] ∧ (fencedBench fun c => { c with holdAllPorts := [4] }).ctx.due = [4] ∧
      (fencedBench fun c => { c with holdRel := [5] }).Open [1, 3] [] [] [] ∧ (fencedBench fun c => { c with holdRelPorts := [4] }).ctx.due = [4] := by
  unfold State.Open; decide +kernel
theorem test_meets_StreamBinding :
    portIx 10 = some 0 ∧ portIx 13 = some 3 ∧ portIx 9 = none ∧ portIx 14 = none ∧
      (let s := State.words testBench [(0x1FFE0, 0x100), (0x1FFE8, 8), (0x1FFF0, 0xFFFFFFFF), (0x1FFF8, 0xF)]
       s.rdt = false ∧ s.ctx.g[(13 : GIx)].pending = false ∧ s.ctx.portOf 13 = none ∧ s.Open [1] [] [] [] ∧ s.plainBlocked = false ∧
         (s.gv 1).toNat / 2 ^ 60 ≠ 8 ∧ s.element s.who 0xFFE0 32 32 .read = .ok (.mem 0x1FFE0) ∧
         portOfDesc (s.load 0x1FFE0 8) (s.load 0x1FFE8 8) (s.load 0x1FFF0 8) (s.load 0x1FFF8 8) =
           some { wr := true, sx := true, size := 3, base := 0x100, stride := 8, count := 0xFFFFFFFF, pos := 0, moved := 0, fifo := []
                  halted := false, pc := 0, pair := 0, no := 0 } ∧
         s.dataFault 0x1FFE0 32 false = none ∧ (s.foundError 0x1FFE0 8).dataFault 0x1FFE0 32 false = some (0x21, true) ∧
         (s.foundError 0x1FFE0 8).element s.who 0xFFE0 32 32 .read = .ok (.mem 0x1FFE0) ∧
         s.ctx.answered = none ∧ (answeredBench s).ctx.answered = some testAnswer ∧ testAnswer.err = none ∧
         (answeredBench s).element s.who 0xFFE0 32 32 .read = .ok (.mem 0x1FFE0)) ∧
      (benchPort (readPort 3)).ctx.portOf 10 = some (readPort 3) ∧ (readPort 3).wr = false ∧ (fullPort 0).fifo = [] ∧
      (fullPort 1).wr = true ∧ (fullPort 1).fifo ≠ [] ∧ testBench.ctx.portOf 10 = none ∧
      ((benchPort (fullPort 0)).modCtx (·.pendG 10 4)).ctx.g[(10 : GIx)].pending = true ∧
      ((benchPort (fullPort 0)).modCtx (·.pendG 10 4)).ctx.portOf 10 = some (fullPort 0) := by unfold State.Open; exact @of_decide_eq_true _ (letI := @decE; inferInstance) (by decide +kernel)
theorem test_meets_PortsAndRegisterFills :
    portIx 10 = some 0 ∧ (benchPort (readPort 1)).ctx.ports[(0 : Fin 4)] = some (readPort 1) ∧ (readPort 1).fifo = [testElem] ∧
      testBench.popped = [] ∧ spentPort.count ≤ spentPort.pos ∧ (readPort 0).pos < (readPort 0).count ∧ (fullPort 7).fifo.length < 8 ∧
      8 ≤ (fullPort 8).fifo.length ∧ ({ readPort 0 with base := 0 } : Port).base = 0 ∧
      testBench.rdt = false ∧ testBench.Open [1, 2] [] [] [] ∧ testBench.plainBlocked = false ∧ testBench.heldRel = false ∧
      (0x80000000 : Word).toNat / 2 ^ 31 ≠ 0 ∧ (0x7FFFFFFF : Word).toNat / 2 ^ 31 = 0 ∧
      testBench.inCoreSet testBench.ctx.rcb 8 = false ∧ testBench.inCoreSet testBench.ctx.rcb 7 = true ∧
      (0x800 : Word).toNat / 2 ^ 11 % 2 ^ 12 ≠ testBench.hub.peer.toNat ∧ (0x7 : Word).toNat / 2 ^ 11 % 2 ^ 12 = testBench.hub.peer.toNat ∧
      testBench.ctx.portOf 10 = none ∧ testBench.ctx.g[(10 : GIx)].pending = false ∧
      (benchT (·.pendG 10 4)).ctx.g[(10 : GIx)].pending = true ∧ (benchPort (readPort 1)).ctx.portOf 10 = some (readPort 1) ∧
      ((benchPort (fullPort 0)).modCtx (·.pendG 10 4)).ctx.g[(10 : GIx)].pending = true ∧ (benchPort (readPort 1)).ctx.g[(10 : GIx)].pending = false := by
  unfold State.Open; exact @of_decide_eq_true _ (letI := @decE; inferInstance) (by decide +kernel)
/-! ### Witnesses: tiles, engines, objects, messages, channels -/

/-- A request of slot 0. -/
def reqOf (op : MxOp) (started : Bool) : MxReq :=
  { id := 9, slot := 0, tid := 7, pc := 0x1000, pair := 0, op := op, rnd := 0, mfmt := 0, shape := testShape 1 1 0, started := started
    data := none, seen := [], got := [] }
/-- The bench with a shape of tile 1 and requests queued. -/
def tileBench (h : Shape) (q : List MxReq) : State := testBench.modCore 0 fun c => { c with shapes := c.shapes.set 1 h, mxq := q }
/-- A cluster without a matrix unit. -/
def nomxBench : State := testBench.modCluster 0 fun c => { c with nomx := true }
/-- One access of a tile's positions is allowed here. -/
def okE {ε α : Type} : Except ε α → Bool
  | .ok _ => true
  | .error _ => false

theorem test_meets_TileChecksInOrder :
    testBench.rdt = false ∧ nomxBench.nomx = true ∧ testBench.nomx = false ∧
      ((tileBench { testShape 1 1 0 with owner := 15 } []).cur.shapes[(1 : TIx)].inuse = true ∧
        (tileBench { testShape 1 1 0 with owner := 15 } []).cur.shapes[(1 : TIx)].owner ≠ BitVec.ofNat 4 (0 : Fin 16).val) ∧
      testBench.cur.shapes[(1 : TIx)].inuse = false ∧ testBench.cur.shapes[(7 : TIx)].cfg = false ∧ (tileBench (testShape 1 1 0) []).cur.shapes[(1 : TIx)].owner = BitVec.ofNat 4 0 ∧
      (tileBench (testShape 1 1 0) [reqOf (.mma 1 0 0) true]).cur.locked 1 = true ∧
      (tileBench (testShape 1 1 0) [reqOf (.mma 1 0 0) true]).cur.locked 7 = false ∧
      4 ≤ (tileBench (testShape 1 1 0) (List.replicate 4 (reqOf (.mma 1 0 0) true))).cur.mxq.length ∧
      (tileBench (testShape 1 1 0) (List.replicate 3 (reqOf (.mma 1 0 0) true))).cur.mxq.length < 4 := by decide +kernel
theorem test_meets_TileInstructionsIssue :
    (let s := tileBench (testShape 15 15 0) []
     s.rdt = false ∧ s.cur.mxq.length < 4 ∧ s.nomx = false ∧ s.cur.shapes[(1 : TIx)].owner = BitVec.ofNat 4 s.slot.val ∧
       s.cur.shapes[(1 : TIx)].cfg = true ∧ s.cur.locked 1 = false ∧ s.Open [1, 2] [] [] [] ∧ s.Open [1] [] [] [3] ∧ s.Open [1] [3] [] [] ∧
       s.Open [] [] [1] [] ∧ s.reservedTile 1 = false ∧ s.cur.shapes[(1 : TIx)].saving = false ∧ (0x3FF : Word).toNat < 2 ^ 10 ∧ s.cur.shapes[(2 : TIx)].cfg = false ∧
       s.cur.locked 2 = false ∧ (15 : Word).toNat ≤ s.cur.shapes[(1 : TIx)].rows.toNat) ∧
      (1 ≤ 0x4088 % 16 ∧ 0x4088 % 16 ≤ 8 ∧ 1 ≤ 0x4088 / 16 % 16 ∧ 0x4088 / 16 % 16 ≤ 8 ∧ 1 ≤ 0x4088 / 2 ^ 8 ∧ 0x4088 / 2 ^ 8 ≤ 64) ∧
      (1 ≤ 0x111 % 16 ∧ 1 ≤ 0x111 / 16 % 16 ∧ 1 ≤ 0x111 / 2 ^ 8) ∧
      (let s := (tileBench (testShape 1 1 0) []).modCore 0 fun c => { c with mfmt := 0x122 }
       mmaFault s (testShape 1 1 0) false 0x1FFFE8 0x100 = none ∧ mmaFault s (testShape 1 1 0) false 0x1FFFEC 0x100 = some ⟨0x06, 0x1FFFEC, 0⟩) ∧
      mmaFault ((tileBench (testShape 1 1 1) []).modCore 0 fun c => { c with mfmt := 0x122 }) (testShape 1 1 1) true 0 0x100 = none := by
  unfold State.Open; decide +kernel
/-- A descriptor of a 2 by 2 tensor of 4-byte elements at 0x300, read at 0x1FFE0. -/
def tensorBench : State := State.words (tileBench (testShape 1 1 0) []) [(0x1FFE0, 0x300), (0x1FFE8, 0x200000002), (0x1FFF0, 8), (0x1FFF8, 0)]
theorem test_meets_TileLoadsIssue :
    (let s := tileBench (testShape 1 1 0) []
     s.rdt = false ∧ s.nomx = false ∧ s.Open [1, 2] [] [] [] ∧ s.cur.shapes[(1 : TIx)].owner = BitVec.ofNat 4 s.slot.val ∧
       s.cur.shapes[(1 : TIx)].cfg = true ∧ s.cur.locked 1 = false ∧ (2 : Word).toNat % 4 ≠ 0 ∧ (0x40 : Word).toNat % 4 = 0 ∧
       s.heldAll = false ∧ s.heldRel = false ∧ s.cur.mxq.length < 4 ∧
       okE (tileHomes s 4 true ([0xFFB8, 0xFFBC, 0xFFF8, 0xFFFC].map some)) = true ∧
       okE (tileHomes s 4 false ([0xFFB8, 0xFFBC, 0xFFF8, 0xFFFC].map some)) = true) ∧
      (tensorBench.plainBlocked = false ∧ tensorBench.element tensorBench.who 0xFFE0 32 32 .read = .ok (.mem 0x1FFE0) ∧
        tensorBench.dataFault 0x1FFE0 32 false = none ∧ (tensorBench.tensorAt 0x1FFE0 4).isSome = true ∧ (tensorBench.store 0x1FFF0 8 6).tensorAt 0x1FFE0 4 = none ∧
        tensorBench.ctx.answered = none ∧ (answeredBench tensorBench).ctx.answered = some testAnswer ∧ testAnswer.err = none ∧
        (answeredBench tensorBench).plainBlocked = false ∧ (answeredBench tensorBench).element tensorBench.who 0xFFE0 32 32 .read = .ok (.mem 0x1FFE0) ∧
        4 ≤ (tileBench (testShape 1 1 0) (List.replicate 4 (reqOf (.trel 2) true))).cur.mxq.length ∧ okE (tileHomes tensorBench 4 true [some 0x300, none, some 0x308, none]) = true) := by
  unfold State.Open; exact @of_decide_eq_true _ (letI := @decE; inferInstance) (by decide +kernel)

/-- Commands at the engine's FIFO. -/
def engOf (ecx : Fin 4) (n : Nat) (k : EngKind) (started : Bool) : EngOp :=
  { ecx := ecx, n := n, kind := k, slot := 0, tid := 7, rcb := 0x40000, privBase := 0, privSize := 0x1000, started := started
    work := Work.init, flags := 0, filling := false, io := none }
def engBench (l : List EngOp) : State := testBench.modCore 0 fun c => { c with engs := l }
def nsBench : State := (benchG [(4, 1), (5, 0), (6, 0x100), (7, 512)]).modHub fun h => { h with
  namespaces := [(1, { valid := true, qregion := 0x40000, ctrl := 0, nsid := 1, lbads := 9 })] }
/-- The home that a command's check reads, and whether the command then goes. -/
def checked (c : Except Trap EngCheck) : Option (Option (Home × Nat) × Bool) := match c with
  | .ok (d, r) => some (d, okE r)
  | .error _ => none
/-- A command whose bounded source is read first. -/
theorem test_meets_EngineAndPlaneCommandsIssue_bounded :
    let s := State.words testBench [(0x1FFC0, 0x300), (0x1FFC8, 0x200000002), (0x1FFD0, 8), (0x1FFD8, 0), (0x1FFE0, 0)]
    s.ctx.answered = none ∧ s.plainBlocked = false ∧ s.dataFault 0x1FFC0 40 false = none ∧
      checked (cpyqCheck s 0xFFC0 0x200 4 0x800000000000) = some (some (.mem 0x1FFC0, 40), true) ∧
      checked (cpyqCheck (answeredBench s) 0xFFC0 0x200 4 0x800000000000) = some (some (.mem 0x1FFC0, 40), true) ∧
      checked (cpyqCheck (s.store 0x1FFDC 4 1) 0xFFC0 0x200 4 0x800000000000) = some (some (.mem 0x1FFC0, 40), false) ∧
      checked (cpyqCheck s 0x8005000000000000 0x200 4 0x800000000000) = some (some (.fab 5 0, 40), true) ∧
      (answeredBench s).ctx.answered = some testAnswer ∧ testAnswer.err = none := by decide +kernel
/-- A command that a fence holds back, and one whose peer's descriptor finds no result tag free. -/
theorem test_meets_EngineAndPlaneCommandsIssue_held :
    (let s := fencedBench fun c => { c with holdRel := [5] }
     s.rdt = false ∧ s.heldRel = true ∧ s.Open [4, 5, 6, 7] [] [7] [] ∧ s.Open [1, 3, 4] [] [] [] ∧ s.Open [1, 3, 4, 5] [] [] []) ∧
      (let s := { testBench with seq := 1029 }.modCtxAt 0 1 fun c => { c with accs := [testAcc 5 (.ask .home) true] }
       s.tagBusy = true ∧ s.rdt = false ∧ s.heldRel = false ∧ s.plainBlocked = false ∧ s.ctx.answered = none ∧ s.Open [4, 5, 6, 7] [] [7] [] ∧
         checked (cpyqCheck s 0x8005000000000000 0x200 4 0x800000000000) = some (some (.fab 5 0, 40), true)) := by
  unfold State.Open; decide +kernel
theorem test_meets_EngineAndPlaneCommandsIssue :
    (let s := benchG [(4, 0x100), (5, 0x200), (6, 64)]
     s.rdt = false ∧ s.heldAll = false ∧ s.heldRel = false ∧ s.Open [4, 5, 6, 7] [] [7] [] ∧ s.plainBlocked = false ∧
       checked (cpyqCheck s (s.gv 4) (s.gv 5) (s.gv 6) (s.gv 7)) = some (none, true) ∧ okE (cpyqCheck s 0x1000000000000000 0x200 64 0) = false) ∧
      checked (iordCheck nsBench (nsBench.gv 4) (nsBench.gv 5) (nsBench.gv 6) (nsBench.gv 7)) = some (none, true) ∧
      okE (iordCheck testBench 0 0 0 0) = false ∧
      ((engBench (List.replicate 7 (engOf 0 1 (.copy 0 0 0 0 0 []) false))).cur.engs.filter fun o => !o.started).length < 8 ∧
      8 ≤ ((engBench (List.replicate 8 (engOf 0 1 (.copy 0 0 0 0 0 []) false))).cur.engs.filter fun o => !o.started).length ∧
      (testBench.Open [1, 2, 3] [] [] [] ∧ testBench.Open [1, 2, 3, 3] [] [] [] ∧ nomxBench.nomx = true ∧ testBench.nomx = false ∧
        testBench.padAllowed (clusterOfCore 0) 0x40000 = true) ∧
      (let w := 0x4000000014
       w % 16 ≤ 6 ∧ 3 ≤ w % 16 ∧ w / 64 % 2 ^ 10 = 0 ∧ w / 2 ^ 31 % 2 = 0) ∧ ¬(7 ≤ 6) ∧ 2 ^ 21 - 8 + (0 + 1) * (0 + 1) * (4 * (0 + 2)) ≤ 2 ^ 21 ∧
      2 ^ 21 ≤ (0x200000 : Word).toNat ∧ (0x1FFFFE : Word).toNat < 2 ^ 21 ∧ (0x1FFFFE : Word).toNat % 4 ≠ 0 := by
  unfold State.Open; decide +kernel
/-- An obligation of the task on an object of this device. -/
def oblOf (key : Nat) (rank : BitVec 32) (kind : BitVec 4) : Obl :=
  { ref := .local_ key, addr := BitVec.ofNat 64 (key - 0x10000), ph := 0, rank := rank, ar := 0, m := 1, kind := kind }
def mailBench : State := (benchT fun c => { c with obls := [oblOf 0x10200 9 0] }).modCore 0 fun c => { c with
  mailbox := [(0x123400000000, 5)], sched := some { rcb := 0x40000, list := [3, 4], cursor := 1 } }
theorem test_meets_MailboxAndSchedule :
    testBench.rdt = false ∧ testBench.Open [1] [] [2] [] ∧ testBench.Open [1] [] [2, 3] [] ∧ testBench.Open [] [] [1] [] ∧
      2 ^ 32 ≤ (0x100000000 : Word).toNat ∧ (0xFFFF1234 : Word).toNat < 2 ^ 32 ∧ mailBench.ctx.minRank ≠ 0 ∧
      (benchT fun c => { c with obls := [oblOf 0x10200 0 0] }).ctx.minRank = 0 ∧
      (let hit : Word × Word → Bool := fun e => (e.1.extractLsb' 32 16 &&& 0xFFFF) == (0x1234 : BitVec 16) &&& 0xFFFF
       mailBench.cur.mailbox.any hit = true ∧ mailBench.cur.mailbox.find? hit = some (0x123400000000, 5)) ∧
      testBench.cur.mailbox = [] ∧ testBench.cur.pending = 0 ∧ (testBench.modCore 0 fun c => { c with pending := 1 }).cur.pending ≠ 0 ∧
      (mailBench.cur.sched.map fun l => (l.rcb == mailBench.ctx.rcb, l.list[l.cursor]?)) = some (true, some 4) ∧
      testBench.cur.sched = none := by unfold State.Open; decide +kernel
/-- A task that waits for its migration packet, and where it may go. -/
def migrBench : State := accBench (.migrate 1) id
theorem test_meets_Migration :
    testBench.rdt = false ∧ testBench.Open [1] [] [] [] ∧ portBench.ctx.ports[(0 : Fin 4)].isSome = true ∧
      ((tileBench (testShape 1 1 0) []).cur.shapes[(1 : TIx)].inuse = true ∧
        (tileBench (testShape 1 1 0) []).cur.shapes[(1 : TIx)].owner = BitVec.ofNat 4 0) ∧
      testBench.migrTarget 0xE000000000000000 = .ok 0 ∧ testBench.migrTarget 0 = .ok 1 ∧
      okE (testBench.migrTarget 0x1000000000000000) = false ∧
      (migrBench.ctxAt (0 / 16) (Fin.ofNat 16 0)).accs = [accOf (.migrate 1)] ∧ migrBench.prioritiesFor 1 = [] ∧ (migrBench.coreAt 1).contained = false ∧
      migrBench.claimable 1 (migrBench.ctxAt 0 0).rcb = some 0 ∧ migrBench.isRdt (migrBench.ctxAt 0 0).rcb = false := by
  unfold State.Open; exact @of_decide_eq_true _ (letI := @decE; inferInstance) (by decide +kernel)

/-- A sync object. -/
def objOf (kind rank value count arrived owed : Nat) : SObj :=
  { rank := rank, pcode := 0, poisoned := false, kind := kind, value := value, phase := 0, count := count, arrived := arrived
    owed := owed, wdie := 0, wcnt := 0 }
/-- The bench with an object at 0x200, which lies at 0x10200, and obligations of the task. -/
def objBench (o : SObj) (l : List Obl) : State := (testBench.putObj 0x10200 o).modCtx fun c => { c with obls := l }
theorem test_meets_ObjectRecordRoundTrip :
    (let o : SObj := { rank := 2 ^ 32 - 1, pcode := 255, poisoned := true, kind := 15, value := 2 ^ 64 - 1, phase := 2 ^ 32 - 1
                       count := 2 ^ 16 - 1, arrived := 2 ^ 16 - 1, owed := 2 ^ 32 - 1, wdie := 15, wcnt := 2 ^ 32 - 1 }
     testBench.Sound ∧ spaceOf 0x1FFFFFFFC0 = .dram 0 ∧ 0x1FFFFFFFC0 % 64 = 0 ∧ testBench.poison.contains 0x1FFFFFFFC0 = false ∧
       o.rank < 2 ^ 32 ∧ o.kind < 16 ∧ o.value < 2 ^ 64 ∧ (testBench.putObj 0x1FFFFFFFC0 o).obj 0x1FFFFFFFC0 = o) := by
  unfold State.Sound; decide +kernel
theorem test_meets_ObjectRules :
    (objOf 0 5 0 0 0 1).kind ≠ 2 ∧ (objOf 2 5 0 3 2 3).kind = 2 ∧ (objOf 2 5 0 3 2 3).phase < 2 ^ 32 ∧ (0xFFFFFFFF : Word).toNat < 2 ^ 32 ∧
      (oblOf 0x10200 5 2).ph.toNat = (objOf 2 5 0 3 2 3).phase ∧ (oblOf 0x10200 5 2).ar = 0 ∧ 1 < (objOf 2 5 0 2 0 2).count ∧
      (objOf 2 5 0 3 1 3).arrived ≠ 3 - 1 ∧ (objOf 2 5 0 3 2 3).arrived = 3 - 1 ∧ (objOf 2 5 0 3 2 3).arrived + 1 = 3 ∧
      (0x8005000000000000 : Word).toNat / 2 ^ 60 = 8 ∧ testBench.element testBench.who 0xFFC0 64 64 .write = .ok (.mem 0x1FFC0) ∧
      testBench.element testBench.who 0x20 64 64 .write = .error ⟨0x07, 0x20, 0⟩ ∧ objHome 0x8000000000 = false ∧ objHome 0x1FFC0 = true ∧
      (testBench.foundError 0x1FFC0 8).dataFault 0x1FFC0 64 false = some (0x21, true) ∧ testBench.dataFault 0x1FFC0 64 false = none := by
  exact @of_decide_eq_true _ (letI := @decE; inferInstance) (by decide +kernel)
/-- A second task of the region on the core, in a state. -/
def twoTasks (s : State) (st : SlotSt) : State := s.modSlot 0 1 fun sl => { sl with
  st := st, ctx := { testTask with tid := 8, obls := [oblOf 0x10240 3 0] } }
/-- The home of an object before and after its answer. -/
theorem test_meets_ObjectInstructions_home :
    let s := objBench (objOf 1 5 0 0 0 2) [oblOf 0x10200 5 1]
    s.ctx.answered = none ∧ s.objKey s.who 0x200 .write = .ok 0x10200 ∧ s.objKey s.who 0x200 .read = .ok 0x10200 ∧
      (answeredBench s).ctx.answered = some testAnswer ∧ testAnswer.err = none ∧
      (answeredBench s).objAt s.who 0x200 .write false = .ok 0x10200 := by
  exact @of_decide_eq_true _ (letI := @decE; inferInstance) (by decide +kernel)
/-- A task that an obligation can move to. -/
theorem test_meets_ObjectInstructions_xfer :
    let s := twoTasks (objBench (objOf 1 5 0 0 0 2) [oblOf 0x10200 5 1]) .ready
    (s.taskCtx 8).map (fun e => (e.1, s.descends s.ctx.rcb 64 e.2.rcb, s.waitRank e.2, registryRoom e.2.obls (.local_ 0x10200), e.2.accs)) =
      some (0, true, none, true, []) := by decide +kernel
theorem test_meets_ObjectInstructions :
    (let s := objBench (objOf 1 5 0 0 0 2) [oblOf 0x10200 5 1]
     s.rdt = false ∧ s.plainBlocked = false ∧ s.Open [1, 2] [] [3] [] ∧ s.Open [1] [] [] [] ∧
       s.objAt s.who 0x200 .write false = .ok 0x10200 ∧ (s.obj 0x10200).fabricKind = false ∧
       registryRoom s.ctx.obls (.local_ 0x10200) = true ∧
       (s.ctx.obls.find? fun e => e.ref == .local_ 0x10200) = some (oblOf 0x10200 5 1) ∧
       (s.ctx.obls.find? fun e => e.ref == .local_ 0x10240) = none ∧ s.objAt s.who 0x200 .read false = .ok 0x10200) ∧
      (testBench.objAt testBench.who 0xFFC0 .write true = .ok 0x1FFC0 ∧ testBench.nextChild (testBench.windowOwner 64 0x40000) = 1 ∧
        testBench.dynTop (testBench.windowOwner 64 0x40000) = 0x700) ∧
      1 + (0x6FF : Word).toNat ≤ 0x700 ∧ 0 < (65535 : Word).toNat ∧ (65535 : Word).toNat ≤ 65535 ∧
      (objBench (objOf 0 5 0 0 0 0) []).obj 0x10200 = objOf 0 5 0 0 0 0 ∧
      ((objOf 2 5 0 3 0 3).kind = 2 ∧ (objOf 2 5 0 3 0 3).owed = (objOf 2 5 0 3 0 3).count ∧ (objOf 2 5 0 3 0 2).owed ≠ 3) ∧
      (((oblOf 0x10200 5 2).sync (objOf 2 5 0 3 0 3)).ar < ((oblOf 0x10200 5 2).sync (objOf 2 5 0 3 0 3)).m) ∧
      ((0xEF : BitVec 8).toNat < 0xF0 ∧ 0xF0 ≤ (0xF0 : BitVec 8).toNat ∧ testBench.ctx.mode = false) := by
  unfold State.Open; exact @of_decide_eq_true _ (letI := @decE; inferInstance) (by decide +kernel)
/-- The bench with a message vector table at 0x40800, whose entry 3 is 0x1100. -/
def mvtBench : State := State.words testBench [(0x40028, 0x8000), (0x40030, 4), (0x18018, 0x1100), (0x10200, 0x500000000), (0x10218, 1)]
theorem test_meets_WaitAndSendInstructions :
    (let s := objBench (objOf 1 5 3 0 0 1) [oblOf 0x10240 9 1]
     s.rdt = false ∧ s.plainBlocked = false ∧ s.ctx.answered = none ∧ s.objKey s.who 0x200 .write = .ok 0x10200 ∧ s.Open [1, 2] [] [3] [] ∧
       s.objAt s.who 0x200 .write false = .ok 0x10200 ∧ (answeredBench s).objAt s.who 0x200 .write false = .ok 0x10200 ∧
       (answeredBench s).ctx.answered = some testAnswer ∧ testAnswer.err = none ∧
       (s.obj 0x10200).rank < s.ctx.minRank ∧ (s.obj 0x10200).cond 3 = true ∧ (s.obj 0x10200).cond 4 = false ∧
       (s.obj 0x10200).unowed = false ∧ (objOf 1 5 3 0 0 0).unowed = true ∧ s.cannotMove 0 0 = false ∧ portBench.cannotMove 0 0 = true) ∧
      (objBench (objOf 1 5 3 0 0 1) [oblOf 0x10240 5 1]).ctx.minRank ≤ 5 ∧
      (let s := objBench (objOf 2 5 0 3 2 3) [oblOf 0x10200 5 2]
       (s.ctx.obls.find? fun x => x.ref == .local_ 0x10200) = some (oblOf 0x10200 5 2) ∧ s.Open [1] [] [3] [] ∧
         (s.obj 0x10200).rank < minRank (s.ctx.obls.filter fun x => x.ref != .local_ 0x10200) ∧ (s.obj 0x10200).arrived + 1 = 3 ∧
         (objOf 2 5 0 3 0 3).arrived + 1 < 3 ∧ 3 ≤ (objOf 2 5 0 3 0 3).owed ∧ (objOf 2 5 0 3 0 2).owed < 3) ∧
      (let s := (testBench.modCore 0 fun c => { c with ecx := c.ecx.set 3 { issued := 5, done := [], line := 4, errs := [], posts := [] } })
       s.ctx.minRank ≠ 0 ∧ (4 : Word).toNat ≤ (s.cur.ecx[(3 : Fin 4)]).line ∧ (s.cur.ecx[(3 : Fin 4)]).line < (5 : Word).toNat ∧
         (s.cur.ecx[(3 : Fin 4)]).issued < (6 : Word).toNat ∧ (5 : Word).toNat ≤ (s.cur.ecx[(3 : Fin 4)]).issued) ∧
      (mvtBench.Open [1, 2, 3, 4, 5, 6, 7, 8, 9] [] [] [] ∧ (0x100000000 : Word).toNat / 2 ^ 32 ≠ 0 ∧ (0x800000 : Word).toNat / 2 ^ 23 % 2 ≠ 0 ∧
        mvtBench.inCoreSet mvtBench.ctx.rcb (8 % 2 ^ 11) = false ∧ sendTarget mvtBench 0x3000007 = .ok (7, 3) ∧
        mvtBench.objAt mvtBench.who 0x200 .write false = .ok 0x10200 ∧ (mvtBench.obj 0x10200).fabricKind = false) := by
  unfold State.Open; exact @of_decide_eq_true _ (letI := @decE; inferInstance) (by decide +kernel)

/-- A valid group whose root and only other member is peer 5. -/
def groupBench (e : GroupEntry) : State := chanBench.modHub fun h => { h with groups := [(3, e)], members := [(3, [0, 5])] }
def groupOf (local_ root : Bool) (nmem : BitVec 12) : GroupEntry :=
  { valid := true, local_ := local_, isRoot := root, fwd := 0, up := 0, root := 5, sub := 1, midx := 0, nmem := nmem }
/-- The group's channel of the task, under handle 0. -/
def groupChan : State := (groupBench (groupOf true false 32)).modChan 0 fun c => { c with group := true, dest := 3 }
theorem test_meets_ChannelsOpenAndUsed :
    (testBench.rdt = false ∧ testBench.plainBlocked = false ∧ testBench.heldRel = false ∧
      testBench.Open [1, 2] [] [3] [] ∧ 8 ≤ (8 : Word).toNat ∧ (3 : Word).toNat < 8 ∧ (3 : Word).toNat / 4 % 2 = 0 ∧ (7 : Word).toNat / 4 % 2 = 1 ∧
      (0x8005FFFFFFFFFFC0 : Word).toNat / 2 ^ 60 = 8 ∧ testBench.peerCheck 6 = some 0x0B ∧ testBench.peerCheck 5 = none ∧
      (0x3FFFFFFFFFFFFFF : Word).toNat < 2 ^ 58 ∧ (testBench.groupAt 3).valid = false ∧ ((groupBench (groupOf true false 32)).groupAt 3).valid = true ∧
      tabFree (testBench.dieAt 0).chans 1024 = some 0 ∧ tabFree (chanBench.dieAt 0).chans 1024 = some 1 ∧
      registryRoom testBench.ctx.obls (.remote 5 0) = true ∧
      registryRoom (List.replicate 4096 (oblOf 0x10200 5 0)) (.remote 5 0) = false) ∧
      ((chanBench.chanOf 0).isSome = true ∧ (chanBench.chanOf 0).map (fun c => (c.failed, c.group)) = some (false, false) ∧
        chanBench.Open [1] [] [3] [] ∧ (0x8000 : Word).toNat / 4096 = 8 ∧ chanBench.chanOf (0x8000 % 4096) = chanBench.chanOf 0 ∧
        chanBench.chanOf 4095 = none ∧ (groupChan.chanOf 0).map (fun c => (c.group, c.failed, c.unrel)) = some (true, false, 0) ∧
        groupChan.ctx.wch.getLsbD 15 = true ∧ ((chanBench.modChan 0 fun c => { c with failed := true }).chanOf 0).map (·.failed) = some true ∧
        (0x0FFF : Word).toNat < 4096 ∧ (0x10000 : Word).toNat / 4096 ≠ 8 ∧ (0xE000000000000000 : Word).toNat / 2 ^ 60 = 0xE ∧ 2 ^ 23 - 2 + 1 < 2 ^ 23 ∧ (0xFFFFFFFFFFFF : Word).toNat < 2 ^ 48 ∧
        groupChan.element groupChan.who 0xFF00 (64 * (3 + 1)) 64 .read = .ok (.mem 0x1FF00) ∧
        groupChan.dataFault 0x1FF00 256 false = none) := by
  unfold State.Open; exact @of_decide_eq_true _ (letI := @decE; inferInstance) (by decide +kernel)
/-- A table that lists the numbers of a list. -/
theorem tabGet_listed {α : Type} (x : α) (k : Nat) : ∀ l : List Nat, k ∈ l → tabGet (l.map fun j => (j, x)) k = some x
  | j :: l, h => by
    by_cases e : j = k
    · simp [tabGet, e]
    · simpa [tabGet, e] using tabGet_listed x k l ((List.mem_cons.mp h).resolve_left (Ne.symm e))
/-- A send table without a free entry. -/
def fullChans : List (Nat × Chan) := (List.range 1024).map fun k => (k, newChan 9 0 false false 5 0 [5])
theorem test_meets_ChannelsOpenAndUsed_full :
    (∀ l, ((testBench.modDie 0 fun d => { d with chans := l }).dieAt (dieOfCore 0)).chans = l) ∧ tabFree fullChans 1024 = none :=
  ⟨fun _ => rfl, List.find?_eq_none.mpr fun k h => by simp [fullChans, tabGet_listed _ k _ h]⟩
/-- A channel at its clauses of release and close. -/
theorem test_meets_ChannelsOpenAndUsed_close :
    (tabGet (chanBench.dieAt (3072 / 1024 % 4)).chans (3072 % 1024) = none ∧
        (tabGet (chanBench.dieAt (0 / 1024 % 4)).chans (0 % 1024)).map (fun c => (c.failed, c.owes)) = some (false, true) ∧
        (chanBench.ctxAt 0 0).wch = BitVec.ofNat 16 (2 ^ 15 + 0 % 4096)) := by decide +kernel
theorem test_meets_ReductionContribution :
    testBench.rdt = false ∧ testBench.tagBusy = false ∧ testBench.relaxedBlocked false = false ∧ testBench.Open [1, 2] [] [3] [] ∧ 2 ^ 32 ≤ (0x100000000 : Word).toNat ∧
      (0xFFFFFFFF : Word).toNat < 2 ^ 32 ∧ (0x4000000 : Word).toNat / 2 ^ 26 % 64 ≠ 0 ∧ 2 ^ 38 ≤ (0x4000000000 : Word).toNat ∧
      (0x3F0003FFFF : Word).toNat / 2 ^ 26 % 64 = 0 ∧ (0x3F0003FFFF : Word).toNat < 2 ^ 38 ∧ (0x3FFFF : Word).toNat / 2 ^ 16 % 1024 = 3 ∧
      (testBench.groupAt 3).valid = false ∧ ((groupBench (groupOf true false 32)).groupAt 3).nmem.toNat ≤ 32 ∧
      32 < ((groupBench (groupOf true false 33)).groupAt 3).nmem.toNat ∧ ((groupBench (groupOf false false 32)).groupAt 3).local_ = false := by
  unfold State.Open; decide +kernel
/-! ### Witnesses: other tasks, herds and sweeps -/

/-- The supervisor task, and another task of its region in state 8. -/
def superBench : State := (twoTasks ((benchG [(1, 8), (2, 0x12), (3, 0x2000)]).modCtx fun c => { c with mode := true }) .faulted)
theorem test_meets_OtherTasks :
    superBench.ctx.answered = none ∧
      (let s := answeredBench superBench
       s.ctx.answered.isSome = true ∧ s.rdt = false ∧ s.plainBlocked = false ∧ s.Open [1, 2] [] [4] [] ∧ s.Open [1, 2, 3] [] [] [] ∧
         s.ctx.mode = true ∧ (8 : Word).extractLsb' 0 48 ≠ s.ctx.tid ∧ s.findTask 8 = some (0, 1) ∧
         (s.slotAt 0 1).st = .faulted ∧ s.settledBoth 0 1 = true ∧ s.isRdt (s.ctxAt 0 1).rcb = false ∧
         (s.ctxAt 0 1).g[(15 : GIx)].pending = false ∧ (s.ctxAt 0 1).v[(7 : VIx)].pending = false ∧
         (7 : Word).extractLsb' 0 48 = s.ctx.tid) ∧
      (let s := answeredBench (superBench.setSt 0 1 .object)
       s.findTask 8 = some (0, 1) ∧ (s.slotAt 0 1).st ≠ .faulted ∧ s.Open [1, 2] [] [4] []) ∧
      (0x2000 : Word).toNat % 8 = 0 ∧ (0x2004 : Word).toNat % 8 ≠ 0 ∧ 2 ^ 48 ≤ (0x1000000000000 : Word).toNat ∧
      0x2000007 / 2 ^ 24 < 3 ∧ 0x3000007 / 2 ^ 24 = 3 ∧ 0x3FFFFFF < 2 ^ 26 := by
  unfold State.Open; decide +kernel

/-- A killer with a full registry, and one with room for what its victim owes. -/
theorem test_meets_OtherTasks_kill :
    let s := State.words ((answeredBench superBench).modCtx fun c => { c with start := .notice }) [(0x40000, 0x50000), (0x40038, 0x900)]
    let full := s.modCtx fun c => { c with obls := List.replicate 4096 (oblOf 0x10200 9 0) }
    s.killOver 8 = none ∧ full.killOver 8 = some (oblOf 0x10240 3 0) ∧ full.ctx.answered.isSome = true ∧ full.plainBlocked = false ∧
      full.findTask 8 = some (0, 1) ∧ full.Open [1] [] [] [] := by unfold State.Open; decide +kernel

/-- A herd of 8 elements with cells at 0x2400 and the program CMOV c1, c2 twice. -/
def testHerd : Herd :=
  { seq := 1, rcb := 0x40000, cellBase := 0x2400, plen := 1, rnd := 0, budget := 3, band := 8, count := 8, inBase := 0x2500, outBase := 0x2600
    prog := [.cmov 1 (.reg 2), .cmov 1 (.reg 2)], tlobj := 0, params := Vector.replicate 8 0, counters := Vector.replicate 4 0
    slots := Vector.replicate 16 none, cobjs := Vector.replicate 4 none, flags := 0, faults := 0, faulted := false, sweeps := 0, g := 0
    run := none }
/-- A run of it between sweeps. -/
def testHRun : Run :=
  { limit := 0, swept := 0, snap := Vector.replicate 16 .unbound, base := 0, cursor := none, at_ := none, idle := false, stop := false, free := false
    bands := [], store := 1, wakes := [], tl := none, counted := Vector.replicate 4 none, watched := Vector.replicate 16 none, out := false, pass := false }
/-- The bench with a herd in entry 2 of its cluster, a descriptor at 0x300, and its program at 0x380. -/
def herdBench (x : Herd) : State := State.words ((benchG [(1, 0x300), (2, 0x80001002), (3, 0x100000001)]).modCluster 0 fun c => { c with
  herds := c.herds.set 2 (some x) })
  [(0x10300, 0x2400), (0x10308, 7 + 2 ^ 37), (0x10310, 0x2500), (0x10318, 0x2600), (0x10320, 0x380), (0x10380, 0x0520000005200000)]
/-- Every entry of the engine taken. -/
def fullHerds : State := (herdBench testHerd).modCluster 0 fun c => { c with herds := Vector.replicate 16 (some testHerd) }

theorem test_meets_HerdInstructions :
    (herdBench testHerd).ctx.answered = none ∧ (let s := answeredBench (herdBench testHerd)
     s.ctx.answered.isSome = true ∧ s.rdt = false ∧ s.plainBlocked = false ∧ s.Open [1] [] [4] [] ∧ s.Open [3, 1, 2] [] [] [] ∧
       (match declareHerd s 0x300 with | .ok x => decide (x = { testHerd with seq := 0, budget := 0 }) | .error _ => false) = true ∧
       (match declareHerd s 0x304 with | .ok _ => false | .error t => decide (t = ⟨0x07, 0x304, 0⟩)) = true ∧
       (s.clusterAt 0).herds[(0 : Fin 16)] = none ∧ s.handleEntry 0x80001002 = some (2, testHerd) ∧ s.handleEntry 0x80002002 = none ∧
       rankFault s 0 (Herd.slotKeys s { testHerd with slots := testHerd.slots.set 15 none }) (Herd.owedKeys s testHerd) = none ∧
       runFault s testHerd = none ∧ testHerd.count ≤ 8 ∧ 7 < testHerd.count ∧ testHerd.faults < 2 ^ 24 ∧ testHerd.sweeps < 2 ^ 32) ∧
      (∀ k : Fin 16, (fullHerds.clusterAt 0).herds[k].isSome = true) ∧
      (herdBench { testHerd with run := some { testHRun with cursor := some 0 } }).handleEntry 0x80001002 =
        some (2, { testHerd with run := some { testHRun with cursor := some 0 } }) := by
  unfold State.Open; decide +kernel
/-- An activation of element 3 of the herd. -/
def actBench (x : Herd) (f : Act → Act) : State := { herdBench x with act := f { Act.init with entry := 2, i := 3, status := .running } }
theorem test_meets_ContextInstructions :
    (let s := actBench testHerd id
     s.act.status = .running ∧ s.herd = some testHerd ∧ s.act.pc + 1 ≤ testHerd.plen ∧ (1 : BitVec 6).toNat ≤ testHerd.plen ∧
       testHerd.inBase ≠ 0 ∧ testHerd.outBase ≠ 0 ∧ s.engineRead 0 testHerd.rcb (testHerd.inBase + BitVec.ofNat 64 (4 * 3)) 4 = .ok 0 ∧
       okE (s.engineWrite 0 testHerd.rcb (testHerd.outBase + BitVec.ofNat 64 (4 * 3)) 4 7) = true ∧ s.act.i < (4 : BitVec 8).toNat ∧
       (3 : BitVec 8).toNat ≤ s.act.i ∧ s.readCell 0 testHerd 0 = .ok (Cell.ofNat 0) ∧ (Cell.ofNat 0).done = false ∧
       (255 : BitVec 8).toNat ≤ 255 ∧ (Cell.ofNat 0).pc.toNat < (1 : BitVec 6).toNat ∧ testHerd.run = none ∧ testHerd.snapOf 0 = .unbound) ∧
      (actBench testHerd fun a => { a with pc := 1 }).act.pc + 1 > testHerd.plen ∧
      ({ testHerd with run := some { testHRun with snap := (testHRun.snap.set 0 .met).set 15 .forced } }.snapOf 0 = .met) ∧
      ({ testHerd with run := some { testHRun with snap := testHRun.snap.set 15 .forced } }.snapOf 15 = .forced) ∧
      ({ testHerd with run := some { testHRun with snap := testHRun.snap.set 15 .unmet } }.snapOf 15 = .unmet) ∧
      { testHerd with inBase := 0, outBase := 0 }.inBase = 0 ∧ (actBench testHerd id).act.f = false ∧
      (actBench testHerd fun a => { a with f := true }).act.f = true := by
  exact @of_decide_eq_true _ (letI := @decE; inferInstance) (by decide +kernel)
/-- A run that owes an object for counter 3, good or poisoned. -/
theorem test_meets_ContextInstructions_csig :
    let x := { testHerd with run := some { testHRun with counted := testHRun.counted.set 3 (some 0x10200) } }
    let s := actBench x fun a => { a with pc := 0 }
    s.act.status = .running ∧ s.herd = some x ∧ s.act.pc + 1 ≤ x.plen ∧ (x.run.bind fun r => r.counted[(3 : Fin 4)]) = some 0x10200 ∧
      (x.run.bind fun r => r.counted[(0 : Fin 4)]) = none ∧ (s.obj 0x10200).poisoned = false ∧
      ((s.putObj 0x10200 { objOf 0 5 4 0 0 1 with poisoned := true }).obj 0x10200).poisoned = true := by
  decide +kernel
theorem test_meets_Sweeps :
    (let s := herdBench { testHerd with run := some testHRun }
     let x := { testHerd with run := some testHRun }
     s.herdAt 0 2 = some x ∧ s.readCell 0 x 7 = .ok (Cell.ofNat 0) ∧ (Cell.ofNat 0).wk = 0 ∧ x.run = some testHRun ∧ testHRun.cursor = none ∧
       testHRun.idle = false ∧ testHRun.out = false ∧ testHRun.wakes = [] ∧ (herdBench testHerd).nextRun 0 = none) ∧
      (let x := { testHerd with run := some { testHRun with cursor := some 0 } }
       (herdBench x).nextRun 0 = some 2 ∧ (herdBench x).visiting 0 = none) ∧
      (let x := { testHerd with run := some { testHRun with cursor := some 0, at_ := some { k := 0, act := none } } }
       ((herdBench x).visiting 0).isSome = true) ∧ (herdBench testHerd).visiting 0 = none ∧
      (let c := fun (wk : BitVec 2) (arg : BitVec 8) => { Cell.ofNat 0 with wk := wk, warg := arg, wts := if wk = 1 then 1 else 0 }
       let put := fun (c : Cell) => (herdBench testHerd).store 0x12438 8 c.toNat
       (put (c 1 1)).readCell 0 testHerd 7 = .ok (c 1 1) ∧ (put (c 1 1)).elemMet 0 testHerd 7 1 1 = .ok false ∧
         (put (c 2 15)).readCell 0 testHerd 7 = .ok (c 2 15) ∧ (c 2 15).warg.toNat < 16 ∧ 2 ≤ (c 3 2).warg.toNat ∧
         (put (c 3 1)).readCell 0 testHerd 7 = .ok (c 3 1) ∧ (put { c 0 0 with done := true }).readCell 0 testHerd 7 =
           .ok { c 0 0 with done := true }) ∧
      (objOf 0 5 4 0 0 0).cond 5 = false ∧ (objOf 0 5 5 0 0 0).cond 5 = true ∧ (objOf 0 5 4 0 0 0).unowed = true ∧
      (let r := { testHRun with bands := [(0, { ready := false, allDone := true, sleep := 0, elemw := false, sww := false, stamp := 0 })] }
       r.skips 0 0 = true ∧ 0 + 1 < { testHerd with count := 16 }.bandCount) := by
  exact @of_decide_eq_true _ (letI := @decE; inferInstance) (by decide +kernel)
/-! ### Witnesses: events -/

/-- A late fault of the task. -/
def lateRec : TrapRec := { cause := 0x04, late := true, pc := 0xFF8, addr := 0x40, ranks := 0, pair := 0 }
/-- A fabric read of the task to g2 at its last resend or before. -/
def fabBench (k : Nat) : State := (accBench (.loadG 2 8 true (.fab 5 0x40) 0x8005000000000040) (·.pendG 2 5)).modCtx fun c => { c with
  accs := c.accs.map fun a => { a with resends := k } }
/-- A fill for g4 of slot 0. -/
def fillBench (src : Option (Nat × Fin 16 × Nat)) (f : Ctx → Ctx) : State :=
  (accBench (.fill 0 0 4 9) f).modCore 0 fun c => { c with fills := [{ slot := 0, reg := 4, val := 9, rcb := 0x40000, src := src, eng := none }] }
theorem test_meets_AccessAndStreamEvents :
    (benchT fun c => { c with late := [lateRec] }).ctx.late = [lateRec] ∧ (testBench.ctxAt 0 0).late = [] ∧
      ((benchT fun c => { c with late := [lateRec] }).slotAt 0 0).st = .ready ∧
      (((benchT fun c => { c with late := [lateRec] }).setSt 0 0 .mem).slotAt 0 0).st = .mem ∧
      ((fillBench none id).coreAt 0).fills.take 0 = [] ∧ (fillBench none id).fillStands 0 { slot := 0, reg := 4, val := 9, rcb := 0x40000, src := none, eng := none } = true ∧
      (fillBench none id).fillStands 0 { slot := 1, reg := 4, val := 9, rcb := 0x40000, src := none, eng := none } = false ∧
      (testBench.coreAt 0).fills[0]? = none ∧ ((fillBench none id).coreAt 0).fills[0]?.isSome = true ∧
      (fillBench none id).fillable 0 0 4 = false ∧ (fillBench none fun c => c.killG 4).fillable 0 0 4 = true ∧
      testBench.isRdt (testBench.ctxAt 0 0).rcb = false ∧
      (((fillBench (some (0, 0, 5)) fun c => c.killG 4).fillReg 0 0 4 9).ctxAt 0 0).accs.find? (fun x => x.id == 5) =
        some (accOf (.fill 0 0 4 9)) ∧
      [0, 3].all (fun k => decide (((fabBench k).ctxAt 0 0).accs.find? (fun x => x.id == 5) =
          some { accOf (.loadG 2 8 true (.fab 5 0x40) 0x8005000000000040) with resends := k } ∧
        ((fabBench k).ctxAt 0 0).g[(2 : GIx)].tag = some 5)) = true ∧
      (let s := accBench (.atomic 2 addOne (.fab 5 0x40) 0x8005000000000040) (·.pendG 2 5)
       (s.ctxAt 0 0).g[(2 : GIx)].tag = some 5 ∧
         (s.ctxAt 0 0).accs.find? (fun x => x.id == 5) = some (accOf (.atomic 2 addOne (.fab 5 0x40) 0x8005000000000040))) := by
  exact @of_decide_eq_true _ (letI := @decE; inferInstance) (by decide +kernel)
/-- A fill whose slot holds no task of its region, one that another waits before, a resend that no result tag is free for, and an
element that another port is to write the word of first. -/
theorem test_meets_AccessAndStreamEvents_waits :
    (let s := (fillBench (some (0, 0, 5)) id).modCore 0 fun c => { c with
       fills := [{ slot := 1, reg := 4, val := 9, rcb := 0x40000, src := some (0, 0, 5), eng := none }] }
     s.fillStands 0 { slot := 1, reg := 4, val := 9, rcb := 0x40000, src := some (0, 0, 5), eng := none } = false ∧
       (s.accPlace 5).map (fun e => (e.1, e.2.1)) = some (0, 0)) ∧
      ({ fabBench 0 with seq := 1029 }.tagInUse 0 = true ∧ (fabBench 0).tagInUse 0 = false ∧ ((fabBench 0).slotAt 0 0).st ≠ .settle ∧ ((fabBench 0).ctxAt 0 0).trail = false) ∧
      (let s := benchT fun c => { c with
         ports := (c.ports.set 0 (some { fullPort 1 with fifo := [{ testElem with id := 2, before := [1] }] })).set 3
           (some { fullPort 1 with fifo := [{ testElem with id := 1 }] }) }
       s.elemHeld 0 (s.ctxAt 0 0) { testElem with id := 2, before := [1] } 4 (.mem 0x10104) = true ∧
         s.elemHeld 0 (s.ctxAt 0 0) { testElem with id := 1 } 4 (.mem 0x10104) = false) ∧
      testBench.storeBad 0x10104 = none ∧ ((testBench.modCore 0 fun c => { c with contained := true }).storeBad (localBase 0)) = some 0x21 ∧
      (testBench.foundError 0x10104 4).dropsStore 0x10104 4 = true ∧ { readPort 0 with base := 0 }.base = 0 := by decide +kernel
/-- A load of the task from the word of the ninth element of the port. -/
def meetingBench (p : Port) : State := (benchPort p).modCtx fun c => { c with accs := [testAcc 5 (.loadG 2 8 false (.mem 0x10120) 0x120) false] }
theorem test_meets_AccessAndStreamEvents_fetch :
    (let p := readPort 7
     let s := benchPort p
     (s.ctxAt 0 0).ports[(0 : Fin 4)] = some p ∧ s.isRdt (s.ctxAt 0 0).rcb = false ∧ (s.ctxAt 0 0).trail = false ∧ (s.slotAt 0 0).st ≠ .settle ∧
       p.wr = false ∧ p.base ≠ 0 ∧ p.fifo.length < 8 ∧ p.moved < p.count ∧ p.halted = false ∧
       s.portElement ((s.ctxAt 0 0).who 0) p p.moved .read = .ok (.mem 0x1011C) ∧ s.meets 0 (s.ctxAt 0 0) 4 (.mem 0x1011C) = false ∧
       s.dataFault 0x1011C 4 false = none ∧ (s.foundError 0x1011C 4).dataFault 0x1011C 4 false = some (0x21, true) ∧
       (s.foundError 0x1011C 4).portElement ((s.ctxAt 0 0).who 0) p p.moved .read = .ok (.mem 0x1011C)) ∧
      (let p := { readPort 7 with moved := 8 }
       let s := meetingBench p
       s.portElement ((s.ctxAt 0 0).who 0) p 8 .read = .ok (.mem 0x10120) ∧ s.meets 0 (s.ctxAt 0 0) 4 (.mem 0x10120) = true) ∧
      8 ≤ (readPort 8).fifo.length ∧ (readPort 9).count ≤ (readPort 9).moved ∧ { readPort 0 with halted := true }.halted = true ∧
      testBench.portElement ((testBench.ctxAt 0 0).who 0) { readPort 0 with base := 0x8005000000000000 } 0 .read =
        .error ⟨0x04, 0x8005000000000000, 0⟩ := by
  exact @of_decide_eq_true _ (letI := @decE; inferInstance) (by decide +kernel)
theorem test_meets_AccessAndStreamEvents_drain :
    (let p := fullPort 1
     let s := benchPort p
     (s.ctxAt 0 0).ports[(0 : Fin 4)] = some p ∧ p.wr = true ∧ p.fifo = testElem :: [] ∧ p.halted = false ∧
       s.portElement ((s.ctxAt 0 0).who 0) p p.moved .write = .ok (.mem 0x10104) ∧ s.elemHeld 0 (s.ctxAt 0 0) testElem 4 (.mem 0x10104) = false ∧
       s.frozen 0 (.mem 0x10104) = false ∧ s.dataFault 0x10104 4 false = none ∧
       s.elemHeld 0 (loadingBench.ctxAt 0 0) { testElem with held := [5] } 4 (.mem 0x10104) = true) ∧
      (fullPort 0).fifo = [] ∧ { fullPort 1 with halted := true }.halted = true ∧
      testBench.portElement ((testBench.ctxAt 0 0).who 0) { fullPort 1 with base := 0x1002C } 1 .write = .error ⟨0x05, 0x10030, 0⟩ ∧
      (weightBench true).portElement ((testBench.ctxAt 0 0).who 0) { fullPort 1 with base := 0xFFFC } 1 .write = .ok (.mem 0x8000000000) ∧
      (weightBench true).elemHeld 0 (testBench.ctxAt 0 0) testElem 4 (.mem 0x8000000000) = false ∧
      (weightBench true).frozen 0 (.mem 0x8000000000) = true := by
  exact @of_decide_eq_true _ (letI := @decE; inferInstance) (by decide +kernel)
/-- The request of `testMx`, all of whose elements have been read. -/
def mmaBench : State := testMx (.mma 1 0 0x100) 0x122 0 (testShape 1 1 0) [0x17F, 3, 2, 0x180, 3, 0] [0x17F, 1, 0, 0x17F, 3, 0]
/-- The homes and addresses of a tile access that leaves two positions out. -/
def testEls : List (Option Home) := [some (.mem 0x10100), none, some (.mem 0x10108), none]
def testAddrs : List Word := [0x100, 0, 0x108, 0]
theorem test_meets_MatrixEvents :
    (let s := tileBench (testShape 1 1 0) [reqOf (.tzero 1) false, reqOf (.mma 1 0 0) false]
     nextStart (s.coreAt 0).mxq = some 0 ∧ (s.coreAt 0).mxq[0]? = some (reqOf (.tzero 1) false) ∧
       0 = 0 * 8 + ((s.clusterAt 0).mxLast + 1 + 0) % 8) ∧ (∀ j : Fin 8, nextStart (testBench.coreAt j.val).mxq = none) ∧
      (let r := { reqOf (.mma 1 0 0x100) false with mfmt := 0x122 }
       (r.reads 0)[r.turn (r.reads 0).length 0]? = some (padBase 0, 1, 0) ∧ r.op.isTld = false ∧ testBench.dataFault (padBase 0) 1 false = none ∧
         (reqOf (.tld 1 4 testEls testAddrs 0) false).op.isTld = true ∧
         ((reqOf (.tld 1 4 testEls testAddrs 0) false).reads 0)[0]? = some (0x10100, 4, 0x100)) := by
  decide +kernel
/-- Requests all of whose elements have been read. -/
theorem test_meets_MatrixEvents_ends :
    (((mmaBench.coreAt 0).mxq[0]?).map fun r =>
        ((r.reads 0)[r.turn (r.reads 0).length 0]?).isNone && r.started && !mmaBench.isRdt (mmaBench.ctxAt 0 r.slot).rcb && !(mmaBench.ctxAt 0 r.slot).trail &&
          (runMma r false r.operands (mmaBench.coreAt 0).tiles[(1 : TIx)]).isSome && decide ((mmaBench.ctxAt 0 r.slot).tid = r.tid) &&
          ((mmaBench.ctxAt 0 r.slot).accs.find? fun q => q.id == r.id).isSome) = some true ∧
      (mmaBench.slotAt 0 0).st ≠ .settle ∧
      (let l := [reqOf (.tzero 1) true, reqOf (.tst 1 4 testEls testAddrs) true, reqOf (.tzero 2) true]
       (reqOf (.tzero 1) true).meets (reqOf (.tzero 2) true) = false ∧ (l.take 1).any (·.meets (reqOf (.tzero 1) true)) = true ∧
         (reqOf (.tst 1 4 testEls testAddrs) true).op.isTst = true) ∧
      (let s := (tileBench (testShape 1 1 0) [reqOf (.trowr 7 1 15) true]).modCtx (·.pendV 7 9)
       (s.ctxAt 0 0).v[(7 : VIx)].tag = some 9 ∧ (s.ctxAt 0 0).v[(7 : VIx)].d = false ∧ (s.ctxAt 0 0).tid = 7) ∧
      (let r := { reqOf (.tld 1 4 testEls testAddrs 0) true with seen := [0, 1], got := [5, 6] }
       ((r.reads 0)[r.turn (r.reads 0).length 0]?).isNone = true ∧ r.data = none ∧ testEls.length = (r.shape.rows.toNat + 1) * (r.shape.cols.toNat + 1)) ∧
      (let r := { reqOf (.tst 1 4 testEls testAddrs) true with got := [5, 6] }
       ((r.reads 0)[r.turn (r.reads 0).length 0]?).isNone = true ∧ (r.writesOf.map fun w => w.1 == 4 && w.2[r.turn w.2.length 0]? == some ((.mem 0x10100, 0x100), 5) &&
         (w.2[({ r with seen := [0, 1] } : MxReq).turn w.2.length 0]?).isNone) = some true) := by
  decide +kernel
/-- A request behind one whose memory accesses are not all done, and behind one whose are. -/
theorem test_meets_MatrixEvents_order :
    (let r := { reqOf (.tst 1 4 testEls testAddrs) true with got := [5, 6] }
     r.memDone 0 = false ∧ ({ r with seen := [0, 1] } : MxReq).memDone 0 = true ∧ (reqOf (.tst 1 4 testEls testAddrs) false).memDone 0 = false) ∧
      (reqOf (.tzero 1) true).memDone 0 = true ∧ 1 ∉ (reqOf (.tst 1 4 testEls testAddrs) true).seen ∧ 0 < 2048 ∧ 3 < 4 := by decide +kernel
/-- A namespace. -/
def nsOne : NsEntry := { valid := true, qregion := 0x40000, ctrl := 0, nsid := 1, lbads := 9 }
/-- A copy of 20 bytes to 0x204, in pieces that end at multiples of 8, with a progress. -/
def copyOp (x : Work) : EngOp := { engOf 0 1 (.copy 0x100 0x204 20 0 0 []) true with work := x }
def copyLay : Layout := copyLayout 0 ((copyOp Work.init).who 0) 0x100 0x204 20 0 0 []
/-- Its first piece, read and not yet written. -/
def firstPiece : Piece := { k := 0, got := [some 1, some 2, some 3, some 4], out := [] }
theorem test_meets_EngineEvents :
    (let op := engOf 0 1 (.copy 0x100 0x200 64 0 0 []) false
     ((engBench [op]).coreAt 0).engs[0]? = some op ∧ op.started = false ∧ ((engBench [op]).coreAt 0).engs.find? (fun e => !e.started) = some op) ∧
      (let op := copyOp Work.init
       ((engBench [op]).coreAt 0).engs[0]? = some op ∧ ((engBench [op]).coreAt 0).engs.find? (fun e => !e.started) = none ∧
         op.started = true ∧ (0 : Word).toNat / 2 ^ 42 % 4 = 0 ∧ (0 : Word).toNat / 2 ^ 46 % 4 = 0 ∧ (0 : Word).getLsbD 41 = false) ∧
      copyLay.count = 3 ∧ copyLay.piece 0 = (0, 4) ∧ copyLay.piece 2 = (12, 8) ∧ Work.init.pos < copyLay.count ∧ 0 < copyLay.count ∧
      Work.init.isDone 0 = false ∧ (Work.init.at_ 0).isNone = true ∧
      (List.range 4).all (fun i => match copyLay.src (0 + i) with
        | .inl p => decide (p = 0x100 + BitVec.ofNat 64 i)
        | .inr _ => false) = true ∧
      testBench.resolve ((copyOp Work.init).who 0) 0x103 .read = .ok (.mem 0x10103) ∧ testBench.dataFault 0x10103 1 false = none ∧
      (Work.init.put firstPiece).at_ 0 = some firstPiece ∧ (firstPiece.bytes.map (·.length)) = some 4 ∧
      copyLay.dst testBench 0 = .ok 0x10204 ∧ testBench.dropsStore 0x10204 4 = false ∧ okE (testBench.engWrite 0 0x10204 [1, 2, 3, 4]) = true ∧
      copyLay.count ≤ ({ Work.init with pos := 3 } : Work).pos := by
  exact @of_decide_eq_true _ (letI := @decE; inferInstance) (by decide +kernel)
/-- Planes and storage: a block under way and none left; a transfer that storage has answered, in full and short. -/
theorem test_meets_EngineEvents_rest :
    (engOf 0 1 (.plane 0 0x40 0x80 0 0 0) true).kind = .plane 0 0x40 0x80 0 0 0 ∧ Work.init.pos < tpLines 0 * tpBlocks 0 ∧
      tpLines 0 * tpBlocks 0 ≤ ({ Work.init with pos := 1 } : Work).pos ∧
      (let op := engOf 0 1 (.plane 0 0x40 0x80 0 0 0) true
       (match (testBench.moveBlock 0 (op.who 0) false op 0 0x40 0x80 0 0 .rne 0 0).1 with | .on .. => true | .fail .. => false) = true ∧
         (match (testBench.moveBlock 0 (op.who 0) true op 0 0x40 0x80 0 0 .rne 0 0).1 with | .on .. => false | .fail .. => true) = true) ∧
      (engOf 0 1 (.io 0 0 0x200 0x200 0 nsOne) true).io = none ∧
      (513 : Word).toNat % 2 ^ nsOne.lbads.toNat ≠ 0 ∧ (512 : Word).toNat % 2 ^ nsOne.lbads.toNat = 0 ∧
      (ioLayout 0 ((copyOp Work.init).who 0) (List.replicate 16 0) 0x200 16 0).count ≤ ({ Work.init with pos := 2 } : Work).pos ∧
      (16 : Word).toNat % 2 ^ 32 ≤ (List.replicate 16 (0 : Byte)).length ∧ (List.replicate 15 (0 : Byte)).length < (16 : Word).toNat % 2 ^ 32 ∧
      Ecx.init.done = [] := by decide +kernel

/-- Slot 0 of the bench in another state. -/
def slotBench (st : SlotSt) : State := testBench.setSt 0 0 st
/-- A saved task with a load in flight. -/
def testImage : Image :=
  { ctx := { testTask with accs := [accOf (.loadG 2 8 true (.mem 0x1FFF8) 0xFFF8)] }.pendG 2 5, st := .ready, ready := true, seq := 1 }
/-- A task that waits on the object at 0x10200. -/
def waitBench : State := ((objBench (objOf 1 5 3 0 0 1) []).modCtx fun c => { c with
  wait := some { on := .obj 0x10200 4, dst := some 3, sh := true, pc := 0x1000, pair := 0 } }).setSt 0 0 .object
theorem test_meets_SlotEvents :
    (testBench.slotAt 0 0).st = .ready ∧ max (testBench.slotAt 0 0).since (testBench.slotAt 0 0).lastIssue + 240 ≤ { testBench with clk := 240 }.clk ∧
      { testBench with clk := 239 }.clk < max (testBench.slotAt 0 0).since (testBench.slotAt 0 0).lastIssue + 240 ∧
      SlotSt.preemptable .ready = true ∧ testBench.ctx.trail = false ∧
      [SlotSt.empty, .ending, .shelving, .preempting].all (fun st => ((slotBench st).slotAt 0 0).st == st) = true ∧
      (let s := slotBench .preempting
       s.isRdt (s.ctxAt 0 0).rcb = false ∧ (s.slotAt 0 0).st = .preempting ∧ (s.coreAt 0).mxq = [] ∧
         (∀ j : Fin 4, (s.ctxAt 0 0).ports[j] = none) ∧ (∀ t : TIx, (s.coreAt 0).shapes[t].inuse = false)) ∧
      (let s := ((tileBench (testShape 1 1 0) []).setSt 0 0 .preempting)
       (s.coreAt 0).shapes[(1 : TIx)].inuse = true ∧ (s.coreAt 0).shapes[(1 : TIx)].owner = BitVec.ofNat 4 0 ∧ (s.coreAt 0).mxq = []) ∧
      (waitBench.setSt 0 0 .shelving).slotAt 0 0 = { waitBench.slotAt 0 0 with st := .shelving } ∧ waitBench.cannotMove 0 0 = false ∧
      portBench.cannotMove 0 0 = true ∧ spentPort.wr = false ∧ spentPort.base ≠ 0 ∧
      (∃ r ∈ ((tileBench (testShape 1 1 0) [reqOf (.tzero 1) true]).coreAt 0).mxq, r.slot = 0) ∧
      (waitBench.ctxAt 0 0).wait = some { on := .obj 0x10200 4, dst := some 3, sh := true, pc := 0x1000, pair := 0 } ∧
      (waitBench.slotAt 0 0).st = .object ∧ (∀ j : Fin 4, (waitBench.ctxAt 0 0).ports[j] = none) ∧
      (∀ t : TIx, (waitBench.coreAt 0).shapes[t].inuse = false) ∧ (testBench.ctxAt 0 0).wait = none ∧
      (testBench.modHub fun h => { h with orphans := [{ obl := oblOf 0x10200 5 1, since := 0 }] }).hub.orphans[0]? =
        some { obl := oblOf 0x10200 5 1, since := 0 } ∧ testBench.hub.orphans[0]? = none ∧
      (let s := testBench.modCore 0 fun c => { c with runq := [{ ctx := { testTask with tid := 8 }, seq := 1, migrating := none }] }
       (∀ e ∈ s.cores, e.2.msgs = []) ∧ (s.coreAt 0).images = [] ∧ (s.coreAt 0).launches = [] ∧ (s.coreAt 0).contained = false ∧
         s.claimable 0 0x40000 = some 1 ∧ s.cores.all (fun e => e.2.slots.all fun sl => sl.st != .settle) = true) ∧
      ((testBench.modCore 0 fun c => { c with images := [testImage] }).coreAt 0).images[0]? = some testImage ∧
      testImage.ctx.accs.find? (fun x => x.id == 5) = some (accOf (.loadG 2 8 true (.mem 0x1FFF8) 0xFFF8)) ∧
      testBench.dataFault 0x1FFF8 8 false = none ∧ testImage.ctx.g[(2 : GIx)].tag = some 5 ∧ testImage.ctx.g[(2 : GIx)].d = false ∧
      testImage.ctx.portOf 2 = none ∧ testImage.ctx.trail = false ∧
      (testAcc 5 (.loadG 2 8 true (.mem 0x1FFF8) 0xFFF8) true).lv = none := by decide +kernel

/-- A record of a misaligned access. -/
def trapRec : TrapRec := { cause := 0x07, late := false, pc := 0x1000, addr := 0x101, ranks := 0, pair := 0 }
/-- A saved task in state 8, whose record is still to be delivered. -/
def faultImage : Image := { ctx := { testTask with trap := some trapRec }, st := .faulted, ready := false, seq := 1 }
/-- The bench with the task in state 8. -/
def faultBench (h : Bool) : State := (benchT fun c => { c with trap := some trapRec, handled := h }).setSt 0 0 .faulted
/-- The bench with a comparison of the pair at the PC. -/
def cmpBench (w x : List Word) : State := ((State.words testBench [(0x11000, 0)]).modSlot 0 8 fun sl => { sl with
  st := .ready, ctx := testTask }).modCore 0 fun c => { c with
  cmp := [{ slot := 0, no := 0, lead := some w, trail := some x, ok := false }] }
/-- A device whose core 0 runs nothing. -/
def idleBench : State := testBench.modCore 0 fun _ => Core.init
theorem test_meets_StopEvents :
    (faultBench false).ctx.trap = some trapRec ∧ ((faultBench false).slotAt 0 0).st = .faulted ∧ ((faultBench false).ctxAt 0 0).handled = false ∧
      trapRec.cause ≠ 0x28 ∧ (∀ a ∈ ((faultBench false).ctxAt 0 0).accs, a.counted = false) ∧
      (accOf (.loadG 2 8 true (.mem 0x1FFF8) 0xFFF8)).counted = true ∧ faultImage.st = .faulted ∧ faultImage.ctx.trap = some trapRec ∧
      faultImage.ctx.handled = false ∧ (faultImage.ctx.accs = []) ∧
      ((testBench.modCore 0 fun c => { c with images := [faultImage] }).coreAt 0).images[0]? = some faultImage ∧
      (let s := testBench
       ¬(s.ctx.pc < s.codeBase s.ctx.rcb ∨ s.codeEnd s.ctx.rcb ≤ s.ctx.pc) ∧ (0xFF8 : Word) < s.codeBase s.ctx.rcb ∧
         (match s.resolve s.who s.ctx.pc .fetch with | .ok (.mem k) => k == 0x11000 | _ => false) = true) ∧ ((faultBench true).ctxAt 0 0).handled = true ∧
      (let s := benchT fun c => { c with bp := c.bp.set 3 0x1001 }
       (s.slotAt 0 0).st = .ready ∧ (s.ctxAt 0 0).trail = false ∧ (s.ctxAt 0 0).dbgHalt = none ∧
         (s.ctxAt 0 0).bp[(3 : Fin 4)] = (s.ctxAt 0 0).pc ||| 1 ∧ (s.ctxAt 0 0).pc.toNat % 8 = 0 ∧ (s.ctxAt 0 0).bpSkip ≠ some (s.ctxAt 0 0).pc ∧
         (s.ctxAt 0 0).bpSession = 0 ∧ ({ s.ctxAt 0 0 with bpSkip := some (s.ctxAt 0 0).pc } : Ctx).bpSkip = some (s.ctxAt 0 0).pc) ∧
      (∀ b : Fin 4, (testBench.ctxAt 0 0).bp[b].getLsbD 0 = false) ∧
      (cmpBench [0] [0]).compareAt 0 0 = some { slot := 0, no := 0, lead := some [0], trail := some [0], ok := false } ∧
      (cmpBench [0] [1]).compareAt 0 0 = some { slot := 0, no := 0, lead := some [0], trail := some [1], ok := false } ∧
      testBench.compareAt 0 0 = none ∧ (idleBench.coreAt 0).contained = false ∧ (∀ j : Fin 16, (idleBench.slotAt 0 j).st = .empty) ∧
      (idleBench.coreAt 0).engs = [] ∧ (idleBench.coreAt 0).fills = [] ∧ (∀ m ∈ (idleBench.coreAt 0).msgs, m.fixed = false) ∧ (idleBench.coreAt 0).offSlot = [] ∧
      ((testBench.modCore 0 fun c => { c with contained := true }).coreAt 0).contained = true ∧
      (cmpBench [0] [0]).copyFault 0 0 ((cmpBench [0] [0]).ctxAt 0 0) = none ∧
      (cmpBench [0] [0]).copyFault 0 0 ((cmpBench [0] [0]).ctxAt 0 (trailSlot 0)) = none := by decide +kernel
/-! ### Witnesses: host queues -/

/-- A queue of 16 entries whose ring stands at host address 0, of the region of the bench. -/
def testQueue : Queue := { Queue.init with
  reg := { valid := true, ring := 0, log2n := 4, cpl := 0x400, owner := 0, prio := 5, qrcb := 0x40000 }, tail := 1, bound := true }
/-- The device with queue 2 and the words of its next entry. -/
def queueBench (f : Queue → Queue) (ws : List Nat) : State :=
  (State.words testBench (ws.zipIdx.map fun e => (hostKey (8 * e.2), e.1))).modHub fun h => { h with
    ready := true, queues := [(2, f testQueue)] }
/-- The words of the entry at hand. -/
def entryOf (ws : List Nat) : List Word := (List.range 8).map fun k => BitVec.ofNat 64 (ws.getD k 0)
/-- Does the interpreter take these words? -/
def takes (ws : List Nat) : Bool := match (queueBench id ws).nextEntry 2 with
  | some (.ok l) => decide (l = entryOf ws)
  | _ => false
/-- The device once the entry is taken, with an object at 0x2200 and obligations of the queue. -/
def takenBench (ws : List Nat) (o : SObj) (l : List Obl) : State :=
  (((queueBench (fun x => { x with obls := l }) ws).putObj 0x12200 o).takeEntry 2 (entryOf ws))
/-- An entry of the queue that has a result or not. -/
def qEntry (typ : BitVec 8) (r : Option (BitVec 8 × Word × Word)) : QEntry :=
  { id := 3, index := 0, tag := 1, typ := typ, listed := false, result := r, launch := none }

theorem test_meets_QueueEvents :
    ((queueBench id []).hub.ready = true ∧ (queueBench id []).hub.warm = false) ∧ testBench.hub.ready = false ∧
      ((queueBench id []).queueAt 2).reg.valid = true ∧ ((queueBench id []).queueAt 3).reg.valid = false ∧
      (let x := testQueue
       let ahead := fun (v : BitVec 32) => (v.toNat + 2 ^ 32 - x.done) % 2 ^ 32
       ((x.tail + 2 ^ 32 - x.done) % 2 ^ 32 ≤ ahead 16 ∧ ahead 16 ≤ 2 ^ x.reg.log2n.toNat) ∧ ¬ahead 17 ≤ 2 ^ x.reg.log2n.toNat ∧
         ¬(x.tail + 2 ^ 32 - x.done) % 2 ^ 32 ≤ ahead 0) ∧
      (queueBench (fun x => { x with bound := false }) []).nextQueue = some 2 ∧ (queueBench id []).nextQueue = none ∧
      (((queueBench id []).hub.queues.filter fun e => e.2.bound).length < 32) ∧ testQueue.runnable = true ∧ testQueue.bound = true ∧
      32 ≤ ((List.replicate 32 (2, testQueue)).filter fun e => e.2.bound).length ∧ 0x010 ≠ 0x008 ∧
      { testQueue with tail := 0 }.runnable = false ∧ testQueue.head ≠ testQueue.tail ∧
      ({ testQueue with entries := [qEntry 0 (some (0, 0, 5))] }.entries = [qEntry 0 (some (0, 0, 5))] ∧ (qEntry 0 none).listed = false ∧
        (qEntry 0 none).typ ≠ 9 ∧ (qEntry 0 none).result = none) ∧ spaceOf (hostKey 0x400) = .host ∧ testQueue.wait = none := by
  decide +kernel
/-- The scratchpads and every other place past the stacked DRAM lie outside the HDM range, wherever that is; and it is not
empty. -/
theorem test_meets_QueueEvents_hdm : spaceOf (padBase 0) ≠ .host ∧ inHdm (padBase 0) = false ∧ ∃ key, inHdm key = true := by
  refine ⟨by decide +kernel, ?_, ?_⟩
  · unfold inHdm padBase
    generalize Config.hdmRange = r
    obtain ⟨d, a, z⟩ := r
    have h := Nat.mod_lt a (y := 129 - (1 + z % 64)) (by omega)
    simp only [Bool.and_eq_false_iff, decide_eq_false_iff_not]
    omega
  · unfold inHdm
    generalize Config.hdmRange = r
    obtain ⟨d, a, z⟩ := r
    exact ⟨d % 4 * 2 ^ 37 + a % (129 - (1 + z % 64)) * 2 ^ 30, by simp only [Bool.and_eq_true, decide_eq_true_eq]; omega⟩
/-- A LAUNCH of one task under the header at 0x2400. -/
def launchOne : List Nat := [1, 0x2400, 0xF00001]
/-- A COPY of 12 bytes under way, with its progress, before, within and after its two pieces. -/
def copyQueue (x : Work) : State := queueBench (fun y => { y with
  entries := [{ qEntry 4 none with copy := some (0x2000, 0x2100, 12, x) }] }) []
theorem test_meets_QueueEntries_copy :
    (let s := copyQueue Work.init
     let who := s.regionWho (s.queueAt 2).reg.qrcb (s.firstCore (s.queueAt 2).reg.qrcb)
     s.hub.lost.any (s.copyTouches who 0x2000 0x2100 12) = false ∧
       (s.modHub fun h => { h with lost := [.die 0] }).hub.lost.any ((s.modHub fun h => { h with lost := [.die 0] }).copyTouches who 0x2000 0x2100 12) = true) ∧
    (let s := copyQueue Work.init
     let core := s.firstCore (s.queueAt 2).reg.qrcb
     let who := s.regionWho (s.queueAt 2).reg.qrcb core
     let l := plainLayout who 0x2000 0x2100 12
     ((s.queueAt 2).entries[0]?.map fun e => e.result.isNone && e.copy == some (0x2000, 0x2100, 12, Work.init)) = some true ∧ l.count = 2 ∧
       Work.init.pos < l.count ∧ l.count ≤ ({ Work.init with pos := 2 } : Work).pos ∧ Work.init.turn l.count 1 = 1 ∧
       (match s.movePiece core who false l Work.init 1 0 with | .on .. => true | .fail .. => false) = true ∧
       (match s.movePiece core who true l Work.init 1 0 with | .on .. => false | .fail .. => true) = true) := by decide +kernel
theorem test_meets_QueueEntries :
    ([[0], [11], launchOne, [2, 0x2200, 3], [3, 0x2200, 3, 0], [3, 0x2200, 3, 1], [3, 0x2200, 3, 0xEF02], [4, 0x2000, 0x2100, 64], [5, 64],
        [6, 64], [7], [8, 0x2000, 5, 7, 3, 255], [10]].all takes = true) ∧
      ([[0], launchOne, [2, 0x2200, 3], [3, 0x2200, 3, 1], [4, 0x2000, 0x2100, 64], [8, 0x2000, 5, 7, 3, 255], [10]].all
        (fun ws => !entryBad (entryOf ws)) = true) ∧ entryBad (entryOf [1, 0, 0, 0, 0, 0, 0, 0]) = false ∧ entryBad (entryOf [2, 0, 0, 1]) = true ∧
      (okE ((State.words (queueBench id launchOne) [(0x12400, 0x1000), (0x12408, 0x1000), (0x12410, 0x2000)]).takeEntry 2 (entryOf launchOne)
        |>.checkLaunch 2 (entryOf launchOne)) = true) ∧
      (okE (((queueBench id [1, 0x2404, 0xF00001]).takeEntry 2 (entryOf [1, 0x2404, 0xF00001])).checkLaunch 2 (entryOf [1, 0x2404, 0xF00001]))
        = false) ∧
      (let t := takenBench [2, 0x2200, 3] (objOf 1 5 3 0 0 1) []
       t.entryObj 2 0x2200 = .ok 0x12200 ∧ t.entryObj 2 0xF0000000800000 = .error 0x06 ∧ (t.obj 0x12200).rank < minRank (t.queueAt 2).obls ∧
         (t.obj 0x12200).cond 3 = true ∧ (t.obj 0x12200).cond 4 = false ∧ (t.obj 0x12200).unowed = false) ∧
      (let t := takenBench [3, 0x2200, 3, 1] (objOf 1 5 3 0 0 1) [{ oblOf 0x12200 5 1 with addr := 0x2200 }]
       minRank (t.queueAt 2).obls ≤ (t.obj 0x12200).rank ∧ (t.obj 0x12200).fabricKind = false ∧
         findObl (t.queueAt 2).obls (.local_ 0x12200) = some { oblOf 0x12200 5 1 with addr := 0x2200 } ∧
         registryRoom (t.queueAt 2).obls (.local_ 0x12200) = true) ∧ (objOf 4 5 0 0 0 0).fabricKind = true ∧
      (3 : Word).toNat / 2 ^ 16 = 0 ∧ 0xEF02 / 2 ^ 8 % 2 ^ 8 < 0xF0 ∧ 0xF0 ≤ 0xF002 / 2 ^ 8 % 2 ^ 8 ∧
      (let t := takenBench [4, 0x2000, 0x2100, 64] (objOf 1 5 3 0 0 1) []
       t.entryKey 2 0x2000 8 .read = .ok 0x12000 ∧ (0x2000 : Word).toNat < 2 ^ 60 ∧ 2 ^ 60 ≤ (0xE000000000000000 : Word).toNat ∧
         2 ^ 40 < (0x10000000001 : Word).toNat ∧ (64 : Word).toNat ≤ 2 ^ 40) ∧
      testQueue.calls = [] ∧ { testQueue with calls := [64, 128] }.calls.length = 2 ∧ (64 : Word).toNat % 64 = 0 ∧ (255 : Word).toNat ≤ 255 ∧
      testQueue.skip = 0 ∧ { testQueue with skip := 1 }.skip ≠ 0 ∧ (qEntry 0 none).result = none ∧ (qEntry 0 none).typ ≠ 6 ∧
      testQueue.entries = [] ∧ { testQueue with entries := [qEntry 4 none] }.entries = [qEntry 4 none] ∧ (qEntry 4 none).typ ≠ 9 ∧
      entryBad (entryOf [10, 0, 0, 1]) = true ∧ ¬(entryType (entryOf [0]) = 1) := by
  exact @of_decide_eq_true _ (letI := @decE; inferInstance) (by decide +kernel)
/-- A FENCE that is held, behind an entry that has not completed and behind none. -/
def fenceQueue (r : Option (BitVec 8 × Word × Word)) : State := queueBench (fun x => { x with
  held := some (9, entryOf [10]), entries := [qEntry 1 r, { qEntry 10 none with id := 9, index := 1 }] }) [10]
theorem test_meets_QueueEntries_fence :
    ([none, some (0, 0, 5)].all fun r => match (fenceQueue r).nextEntry 2 with
      | some (.ok l) => decide (l = entryOf [10]) && decide (((fenceQueue r).queueAt 2).held = some (9, entryOf [10]))
      | _ => false) = true ∧
      entryBad (entryOf [10]) = false ∧ ((entryOf [10]).getD 0 0).toNat % 2 ^ 8 = 10 ∧ ((fenceQueue none).queueAt 2).skip = 0 ∧
      (∀ e ∈ ((fenceQueue none).queueAt 2).entries, e.typ ≠ 9) ∧
      (∀ e ∈ ((fenceQueue (some (0, 0, 5))).queueAt 2).entries, e.result.isSome = true ∨ e.typ = 6 ∨ e.id = 9) ∧
      (∃ e ∈ ((fenceQueue none).queueAt 2).entries, e.result = none ∧ e.typ ≠ 6 ∧ e.id ≠ 9) ∧ testQueue.held = none := by decide +kernel
/-- The words of a DEBUG entry on task 7. -/
def debugWords (sub sel v p : Nat) : List Nat := [9, sub, 7, sel, v, p]
/-- The device with the task stopped or running, and its entry taken. -/
def debugBench (ws : List Nat) (st : SlotSt) : State := ((queueBench id ws).setSt 0 0 st).takeEntry 2 (entryOf ws)
theorem test_meets_DebugEntries :
    ([debugWords 0 0 0 0, debugWords 1 5 0 0x2000, debugWords 2 5 9 0, debugWords 3 3 0x1001 0, debugWords 4 3 0 0, debugWords 5 0 0 0].all
        (fun ws => takes ws && decide ((entryOf ws).getD 0 0 &&& 0xFFFFFFFF0000FFFF = 9) && (entryOf ws).drop 6 == [0, 0]) = true) ∧
      testQueue.skip = 0 ∧
      (let t := debugBench (debugWords 1 5 0 0x2000) .faulted
       (7 : Word).toNat < 2 ^ 48 ∧ t.taskCtx 7 = some (0, t.ctxAt 0 0) ∧ t.owner 0x40000 = (t.queueAt 2).reg.owner.toNat ∧
         t.findTask 7 = some (0, 0) ∧ (t.slotAt 0 0).st = .faulted ∧ t.stoppedAt (t.ctxAt 0 0) = some (0, 0) ∧
         ctxSel 5 = some (.g 5) ∧ (t.ctxAt 0 0).selPending (.g 5) = false ∧ t.entryKey 2 0x2000 8 .write = .ok 0x12000 ∧
         ctxwrFault t (t.ctxAt 0 0) (.g 5) 9 = none ∧ ctxwrFault t (t.ctxAt 0 0) .tid 9 ≠ none ∧ (t.allocSession 2 (t.ctxAt 0 0)).isSome = true ∧
         (3 : Word).toNat < 4 ∧ (0x1001 : Word).toNat / 2 % 4 = 0) ∧
      (let t := queueBench id (debugWords 1 5 0 0x2000)
       t.settledBoth 0 0 = true) ∧
      (((debugBench (debugWords 1 5 0 0x2000) .faulted).modCtx (·.pendG 5 9)).ctxAt 0 0).selPending (.g 5) = true ∧
      (let t := ((queueBench id (debugWords 5 0 0 0)).setSt 0 0 .faulted).store 0x40008 8 0x100300000001 |>.modCtx fun c => { c with pairs := 1 }
       let u := t.takeEntry 2 (entryOf (debugWords 5 0 0 0))
       t.settledBoth 0 0 = false ∧ u.stoppedAt (u.ctxAt 0 0) = some (0, 0) ∧ u.owner 0x40000 = (u.queueAt 2).reg.owner.toNat ∧ u.taskCtx 7 = some (0, u.ctxAt 0 0)) ∧
      [(9, 1), (14, 6)].all (fun e => e.1 % 8 == e.2 && e.1 != e.2) = true ∧
      (let t := debugBench (debugWords 0 0 0 0) .ready
       (t.slotAt 0 0).st = .ready ∧ t.stoppedAt (t.ctxAt 0 0) = none ∧ t.taskCtx 9 = none) := by
  exact @of_decide_eq_true _ (letI := @decE; inferInstance) (by decide +kernel)
/-! ### Witnesses: the fabric, the platform and the resets -/

/-- A packet of a type from peer 5 to this device, and one that has been on its way for 498 µs. -/
def pktOf (typ : BitVec 8) (off : BitVec 48) (n : Nat) : Packet := { Packet.zero with
  typ := typ, src := 5, offset := off, bytes := BitVec.ofNat 16 n, gen := 1, k := 9, payload := List.replicate n 7 }
/-- The bench with a window of peer 5 on VA 0x2000 of the region, rights as given, and a counter for it. -/
def winBench (c : Counter) (rd wr at_ : Bool) : State := (testBench.modHub fun h => { h with
  windows := [(0, { valid := true, obase := 0x100, importer := 5, any := false, rd := rd, wr := wr, at_ := at_, size := 0x1000, revoked := false
                    vbase := 0x2000, rgn := 1 })] }).modDie 0 fun d => { d with counters := [(0, c)] }
/-- A counter of peer 5. -/
def testCounter (f : List Packet) : Counter :=
  { peer := 5, handle := none, recorded := false, obj := 0x12200, reliable := true, b := 0, kn := 9, counts := List.replicate 16 0
    marks := List.replicate 16 none, gen := 1, tries := 0, since := 0, flags := f.map fun p => { pkt := p, refused := none } }
/-- A clk at which every timer of the tests is over. -/
def lateClk (s : State) : State := { s with clk := 1600000 * 1000 }

/-- An access of peer 5 that is being performed, with two words left. -/
def testServe (ctr : Option (Nat × Nat)) : Serve :=
  { pkt := pktOf 1 0x110 16, ctr := ctr, todo := partsOf ((List.range 16).map (0x12010 + ·)), got := [], bad := false }
def servingBench (ctr : Option (Nat × Nat)) : State :=
  (winBench (testCounter []) true true true).modHub fun h => { h with serving := [testServe ctr] }
theorem test_meets_FabricArrivals :
    (pktOf 1 0 4).dst = testBench.hub.peer ∧ { pktOf 1 0 4 with dst := 5 }.dst ≠ testBench.hub.peer ∧
      (let age := fun (s : State) (p : Packet) => (s.clk / 1600 + 4096 - p.birth.toNat) % 4096
       age { testBench with clk := 498 * 1600 } (pktOf 1 0 4) = 498 ∧ age { testBench with clk := 498 * 1600 - 1 } (pktOf 1 0 4) = 497 ∧
         age testBench { pktOf 1 0 4 with birth := 4095 } = 1) ∧
      tabGet testBench.hub.peers 5 = some (.live, true) ∧ ¬tabGet testBench.hub.peers 6 = some (.live, true) ∧
      { testBench with net := [pktOf 1 0 4] }.net[0]? = some (pktOf 1 0 4) ∧ (testBench.groupAt 3).valid = false ∧
      ((groupBench (groupOf true false 32)).groupAt 3).valid = true ∧ ((groupBench (groupOf true false 32)).groupAt 3).isRoot = false ∧
      testBench.hub.linked = true ∧ (pktOf 3 0 4).vn ≠ 2 ∧ { pktOf 0x0D 0 0 with vn := 2 }.vn = 2 ∧
      (testBench.modHub fun h => { h with links := [(0, false)] }).hub.linked = false ∧
      testBench.servesAt (pktOf 1 0 4) = none ∧ (servingBench (some (0, 0))).servesAt (pktOf 1 0x110 16) = some 0 ∧
      (pktOf 3 0 4).arg.getLsbD 39 = false ∧ Packet.wantsReport (pktOf 3 0 4) = false := by decide +kernel
theorem test_meets_PeerRequests :
    (let s := winBench (testCounter []) true true true
     let p := pktOf 1 0x110 8
     p.dst = s.hub.peer ∧ s.age p < 498 ∧ s.peerOk p.src = true ∧ s.hub.linked = true ∧ s.counterFor p false = some (0, 0, testCounter []) ∧
       tabGet (s.dieAt 0).counters 0 = some (testCounter []) ∧ p.gen = (testCounter []).gen ∧ (testCounter []).kn ≤ p.k.toNat ∧
       (24 : BitVec 48).toNat ≤ (testCounter []).kn + 15 ∧ (testCounter []).kn + 15 < (25 : BitVec 48).toNat ∧
       okE (s.windowKeys 5 0x110 8 (·.wr) .write) = true ∧ okE (s.windowKeys 5 0x10FC 8 (·.wr) .write) = false ∧
       (match s.windowKeys 5 0x110 8 (·.wr) .write with
         | .ok ks => decide (partsOf ks = [{ line := 0x12010, len := 8, key := 0x12010, place := 0, n := 8 }])
         | .error _ => false) = true ∧ s.servesAt p = none ∧
       Packet.frees p = false ∧ s.heldFlags < 512 ∧ (testCounter []).flags = [] ∧ okE (s.windowKeys 5 0x110 64 (·.wr) .write) = true ∧
       512 ≤ (winBench (testCounter (List.replicate 512 (pktOf 7 0 0))) true true true).heldFlags ∧ (9 : BitVec 48).toNat = (testCounter []).kn ∧
       (testCounter []).marks.headD none = none ∧ ((testCounter []).b.toNat + (testCounter []).counts.headD 0) % 2 ^ 24 = p.c.toNat ∧
       { testCounter [] with marks := some 3 :: List.replicate 15 none }.marks.headD none = some 3 ∧
       (1 + 2 ^ 24 - 0) % 2 ^ 24 < 2 ^ 23 ∧ 2 ^ 23 ≤ (0 + 2 ^ 24 - 1) % 2 ^ 24) ∧
      (winBench (testCounter []) true true true).counterFor { pktOf 1 0x110 8 with ctr := 1 } false = none ∧
      okE ((winBench (testCounter []) false false false).windowKeys 5 0x110 8 (·.rd) .read) = false ∧
      (match (winBench (testCounter []) true true true).windowKeys 5 0x110 8 (·.rd) .read with
        | .ok ks => ks == (List.range 8).map (0x12010 + ·) && ks.all fun k => testBench.dataFault k 1 false == none
        | .error _ => false) = true ∧
      (atomOf { pktOf 5 0x110 4 with payload := bytesLE 8 1 ++ bytesLE 8 0 }) = some { addOne with signed := false } ∧
      objHome 0x12010 = true ∧ 0x12010 % addOne.w = 0 ∧ testBench.dataFault 0x12010 4 false = none ∧
      (let s := (winBench (testCounter []) true true true).putObj 0x12200 (objOf 4 5 0 0 0 0)
       (s.obj 0x12200).valid = true ∧ (s.obj 0x12200).kind = 4 ∧ 0x12200 % 64 = 0 ∧ spaceOf 0x12200 = .dram 0 ∧
         (s.dieAt 0).freeCtr s.clk = some 1 ∧ (objOf 9 5 0 0 0 0).valid = false ∧
         (match s.windowKeys 5 0x300 64 (·.wr) .write with | .ok ks => ks.head? == some 0x12200 | .error _ => false) = true) := by
  decide +kernel
theorem test_meets_PeerRequests_parts :
    (servingBench (some (0, 0))).hub.serving[0]? = some (testServe (some (0, 0))) ∧
      (testServe none).todo = [{ line := 0x12010, len := 16, key := 0x12010, place := 0, n := 8 }, { line := 0x12010, len := 16, key := 0x12018, place := 8, n := 8 }] ∧
      (testServe none).pkt.typ ≠ 0x02 ∧ testBench.dataFault 0x12010 8 false = none ∧ testBench.dropsAll 0x12010 = false ∧
      testBench.dropsStore 0x12010 16 = false ∧ testBench.clk < testBench.clk + 500 * 1600 := by decide +kernel
/-- The bench with a channel that awaits peer 5. -/
def openingBench : State := chanBench.modChan 0 fun c => { c with live := false, opening := [5], opened := [] }
/-- A report that is awaited. -/
def testReport : ReportWait := { core := 0, chan := 0, handle := 0, k := 9, tag := 0, group := false, dest := 5, gen := 1, ctr := 0, since := 0 }
theorem test_meets_PeerAnswers :
    (let a := fun (op : AccOp) => accBench op (·.pendG 2 5)
     let fab := AccOp.loadG 2 8 true (.fab 5 0x40) 0x8005000000000040
     let at_ := AccOp.atomic 2 addOne (.fab 5 0x40) 0x8005000000000040
     ((a fab).slotAt 0 0).st ≠ .empty ∧ ((a fab).ctxAt 0 0).trail = false ∧ ((a fab).ctxAt 0 0).accs = [accOf fab] ∧
       ((a at_).ctxAt 0 0).accs = [accOf at_] ∧ (∀ j : Fin 16, j ≠ 0 → ((a fab).ctxAt 0 j).accs = []) ∧
       rtagOf (accOf fab).rid 0 = { pktOf 5 0 8 with rtag := rtagOf 5 0 }.rtag ∧ ((a fab).coreAt 0).asking (answersAsk (pktOf 5 0 8)) = none ∧
       ((a (.ask (.peer 5 0x40 8))).ctxAt 0 0).accs = [accOf (.ask (.peer 5 0x40 8))]) ∧ (0 : BitVec 40).toNat / 2 ^ 8 % 4 = 0 ∧
      testBench.chanAt 0 = none ∧ testBench.shortChan (pktOf 0x0B 0 0) false = none ∧ chanBench.shortChan { pktOf 0x0B 0 0 with ctr := 3 } false = some 0 ∧
      ((openingBench.chanAt 0).map fun c => (c.live, c.group, c.opening)) = some (false, false, [5]) ∧
      (chanBench.chanTo 5 3).isSome = true ∧ (0x200 : BitVec 40).toNat / 2 ^ 8 % 4 = 2 ∧ (0x100 : BitVec 40).toNat / 2 ^ 8 % 4 = 1 ∧
      (testBench.modHub fun h => { h with reports := [testReport] }).hub.reports[0]? = some testReport ∧ testReport.k = (pktOf 7 0 0).k ∧
      testReport.ctr = (pktOf 7 0 0).ctr ∧ testReport.dest = (pktOf 7 0 0).src ∧ (testBench.coreAt 0).redputs = [] ∧
      testBench.hub.reports = [] ∧ (testBench.coreAt 0).sealed = false ∧ (testBench.coreAt 0).mailbox.length < 32 := by decide +kernel
/-- Decisions of a release to group 3 that are being merged. -/
def testMerge (n : Nat) : Merge := { group := 3, handle := 0, src := 5, k := 9, rtag := 0, srcEp := 0
                                     out := { applied := n, refused := 0, timedout := 0, first := none, reason := 0 }, seen := [], own := false, since := 0 }
/-- A reduction slot of group 3, with one contribution or more. -/
def testRed (n : Nat) (closed : Bool) : RedSlot :=
  { group := 3, tag := 0, op := .sum, ign := false, timeout := 0, present := 1, nans := 0, vals := [(0, 0)], owed := n - 1, closed := closed, since := 0
    from_ := [(0, 5, 0, 0)] }
theorem test_meets_GroupsAndTimers :
    (let p := { pktOf 3 0 4 with dst := 3 }
     let s := groupBench (groupOf true true 2)
     (s.age p < 498 ∧ s.peerOk p.src = true ∧ s.hub.linked = true) ∧ (s.groupAt 3).valid = true ∧ (s.groupAt 3).isRoot = true ∧ (s.groupAt 3).local_ = true ∧
       Packet.wantsReport p = false ∧ ((groupBench (groupOf false true 2)).groupAt 3).local_ = false) ∧
      (let s := (groupBench { groupOf true true 2 with sub := 3 }).modHub fun h => { h with merges := [testMerge 1], reports := [testReport], busy := [pktOf 2 0 0] }
       s.hub.merges.find? (Merge.same (testMerge 0)) = some (testMerge 1) ∧
         ((testMerge 1).out.merge (testMerge 1).out).total < (s.groupAt 3).sub.toNat ∧ s.hub.merges[0]? = some (testMerge 1) ∧ s.deadBranches (testMerge 1) = [] ∧
         s.clk < (testMerge 1).since + (2 * s.holdMs + 1) * 1600000 ∧ (testMerge 1).since + (2 * s.holdMs + 1) * 1600000 ≤ (lateClk s).clk ∧
         s.clk < testReport.since + (4 * s.holdMs + 1) * 1600000 ∧ testReport.since + (4 * s.holdMs + 1) * 1600000 ≤ (lateClk s).clk ∧
         s.age (pktOf 2 0 0) < 10 ∧ 10 ≤ (lateClk s).age (pktOf 2 0 0) ∧
         (testMerge 1).out.total ≤ (s.groupAt 3).sub.toNat ∧ s.hub.reports[0]? = some testReport ∧ s.hub.reports[1]? = none ∧
         s.hub.busy[0]? = some (pktOf 2 0 0)) ∧
      (let c := testCounter [pktOf 2 0 0]
       tabGet ((winBench c true true true).dieAt 0).counters 0 = some c ∧ tabGet (testBench.dieAt 0).counters 0 = none ∧
         ¬c.since + testBench.holdMs * 1600000 ≤ testBench.clk ∧ c.since + testBench.holdMs * 1600000 ≤ (lateClk testBench).clk ∧
         (pktOf 2 0 0).k.toNat = c.kn ∧ c.kn < 2 ^ 48 ∧ c.reliable = true ∧ c.tries < 3 ∧ c.handle = none ∧
         { c with tries := 3 }.tries ≠ 0 ∧ (∀ k ∈ (testCounter []).counts, k = 0) ∧ { c with reliable := false }.reliable = false) ∧
      (let p := { pktOf 0x0F 0 4 with arg := 3, k := 2 ^ 32 }
       let s := groupBench (groupOf true true 2)
       let with_ := fun (r : RedSlot) => s.modHub fun h => { h with reds := [((redputOf p).group * 31 % 256, r)] }
       p.dst = s.hub.peer ∧ s.redSlotFor (redputOf p) = some (93, none) ∧ 1 < (s.groupAt (redputOf p).group).nmem.toNat ∧
         (with_ (testRed 2 false)).redSlotFor (redputOf p) = some (93, some (testRed 2 false)) ∧ (testRed 2 false).op = (redputOf p).op ∧
         (testRed 2 false).ign = (redputOf p).ign ∧ (testRed 2 false).timeout = (redputOf p).timeout ∧
         (testRed 2 false).present.getLsbD (redputOf p).midx = false ∧ 2 ≤ ((testRed 2 false).add (redputOf p) p).from_.length ∧
         (testRed 2 true).since + 128 * 1600000 ≤ (lateClk s).clk ∧ s.clk < (testRed 2 true).since + 128 * 1600000 ∧
         (testRed 2 false).since + ((testRed 2 false).timeout + 1) * 1600000 ≤ (lateClk s).clk ∧
         (testRed 2 true).closed = true ∧ tabGet (with_ (testRed 2 true)).hub.reds 93 = some (testRed 2 true) ∧
         (s.modHub fun h => { h with reds := (List.range 256).map fun n => (n, { testRed 2 false with group := 4 }) }).redSlotFor (redputOf p) =
           none) := by decide +kernel
theorem test_meets_LinksAndDeath :
    tabGet (testBench.modHub fun h => { h with expanders := [(1, 64, true)] }).hub.expanders 1 = some (64, true) ∧
      tabGet testBench.hub.expanders 1 = none ∧
      (47 / 8 < 6 ∧ 8 * (47 / 8) + 6 ≠ 47 ∧
        tabGet (testBench.modHub fun h => { h with links := [(46, true)] }).hub.links (8 * (47 / 8) + 6) = some true) ∧
      (let p := { pktOf 0x11 2 0 with k := 1 }
       testBench.age p < 498 ∧ testBench.peerOk p.src = true ∧ testBench.hub.linked = true ∧ testBench.hub.silent.contains (p.k.truncate 12, p.offset.truncate 12) = false ∧
         (testBench.modHub fun h => { h with silent := [(1, 2)] }).hub.silent.contains (p.k.truncate 12, p.offset.truncate 12) = true) ∧
      tabGet testBench.hub.peers (6 : BitVec 12).toNat = some (.dead, true) ∧ tabGet testBench.hub.peers (9 : BitVec 12).toNat = none ∧
      (testBench.modHub fun h => { h with dx := 8 }).hub.neighbour 0 (0 / 8) = 1 ∧ (testBench.hub.queues = []) ∧
      (∀ i : Fin 6, ∀ j : Fin 8, (testBench.modHub fun h => { h with dx := 8 }).hub.neighbour 0 i.val = 1 → 8 * i.val + j.val ≠ 0 →
        tabGet testBench.hub.links (8 * i.val + j.val) ≠ some true) ∧
      Part.holds (.bank 0 1 2) 0x8000000000 = false ∧ 0x40000 ∈ testBench.hub.regions.filter (testBench.regionOn (.cluster 0)) ∧ testBench.hub.waiters = [] ∧ testBench.hub.regions.filter (testBench.regionOn (.core 9)) = [] ∧
      Part.holds (.die 1) 0x2000000000 = true ∧ Part.holds (.cluster 3) 0xF0000001B00000 = true := by
  decide +kernel
/-- SILENT from the one live neighbour of peer 1, a device beside it, and not. -/
def silentBench (l : List (BitVec 12 × BitVec 12)) : State :=
  { State.reset with hub := { Hub.init with dx := 2, peers := [(1, .live, true)], silent := l } }
theorem test_meets_LinksAndDeath_silent :
    (silentBench [(1, 0)]).peerDead 1 = false ∧ (silentBench [(1, 0)]).allSilent 1 = true ∧ (silentBench [(1, 5)]).allSilent 1 = false ∧
      (∀ e ∈ (silentBench [(1, 5)]).hub.silent, (silentBench [(1, 5)]).peerDead e.1 = true ∨ (silentBench [(1, 5)]).allSilent e.1 = false) := by
  refine ⟨by decide +kernel, by decide +kernel, by decide +kernel, fun e h => ?_⟩
  cases h with
  | head => exact .inr (by decide +kernel)
  | tail _ h => cases h
/-- A device without cores, whose die 0 holds what is given, and what else peer 5 left it with. -/
def deathBench (d : Die) (reports : List ReportWait) : State :=
  { State.reset with dies := [(0, d)], hub := { Hub.init with peers := [(5, .live, true)], reports := reports, groups := [(3, groupOf false false 2)] } }
/-- The channel of the tests, to peer 5 or to group 3. -/
def deathChan (group : Bool) : Chan := { newChan 7 0 group false (if group then 3 else 5) 0 [] with live := true, opened := [(5, 3)] }
theorem test_meets_LinksAndDeath_rows :
    (deathBench Die.init []).peerDead 5 = false ∧ (deathBench Die.init []).allChans = [] ∧ (deathBench Die.init []).allCounters = [] ∧
      (let c := (fabBench 0).coreAt 0
       (fabBench 0).cores = [(0, c)] ∧ (c.slots[(0 : Fin 16)].st ≠ .empty ∧ c.slots[(0 : Fin 16)].st ≠ .settle) ∧ c.slots[(0 : Fin 16)].ctx.trail = false ∧
         (c.slots[(0 : Fin 16)].ctx.accs.map (waitsFor 5)) = [true] ∧ (∀ j : Fin 16, j ≠ 0 → c.slots[j].ctx.accs = []) ∧ c.images = [] ∧
         c.engs = [] ∧ c.redputs = [] ∧ (fabBench 0).allChans = [] ∧ (fabBench 0).hub.merges = [] ∧ (fabBench 0).peerDead 5 = false) ∧
      ([true, false].all fun g => decide ((deathBench { Die.init with chans := [(9, deathChan g)] } []).allChans = [(9, deathChan g)]) &&
        decide ((deathChan g).live = true ∧ (deathChan g).group = g)) = true ∧ (deathChan false).dest = 5 ∧
      (deathBench { Die.init with counters := [(4, testCounter [])] } []).allCounters = [(0, 4, testCounter [])] ∧ (testCounter []).peer = 5 ∧
      (deathBench Die.init [testReport]).hub.reports = [testReport] ∧ testReport.group = false ∧ testReport.dest = 5 ∧
      (deathBench Die.init []).cores = [] ∧ (deathBench Die.init []).hub.waiters = [] ∧ (deathBench Die.init []).hub.regions = [] ∧
      (testBench.modHub fun h => { h with merges := [testMerge 1] }).hub.merges = [testMerge 1] ∧
      (∀ e ∈ testBench.cores, ∀ i : Fin 16, e.2.slots[i].ctx.accs = []) ∧
      (let s := (groupBench (groupOf false false 2)).modCore 0 fun c => { c with redputs := [(0, 0, 3)] }
       (s.coreAt 0).redputs = [(0, 0, 3)] ∧ (s.groupAt 3).root = 5 ∧ s.cores = [(0, s.coreAt 0)]) := by decide +kernel
/-- A page tree at 0x80000: tables at 0x81000 and 0x82000, then a leaf of 1 GB at 0x40000000. -/
def walkBench : State := State.words testBench [(0x80000, 0x81001), (0x81000, 0x82001), (0x82008, 0x40000007)]
theorem test_meets_PlatformEvents :
    okE (walkBench.walk 0x80000 0x40001000 levels 0x80000) = true ∧ okE (walkBench.walk 0x80000 0x1000 levels 0x80000) = false ∧
      ((0x8A : BitVec 8).getLsbD 7 = true ∧ 10 ≤ (0x8A : BitVec 8).toNat % 32) ∧ (0x89 : BitVec 8).toNat % 32 < 10 ∧
      (0x98 : BitVec 8).toNat % 32 ≤ 24 ∧ 24 < (0x99 : BitVec 8).toNat % 32 ∧
      (underAperture 0xE0000000000000 = true ∧ underAperture 0x40001000 = false ∧ underAperture 0x1000 = false) ∧ spaceOf (hostKey 0) = .host ∧
      (((List.range 4).filter (· != 3)).map fun k => (testBench.dieAt k).power).sum + 2000 ≤ 2000 ∧
      2000 < (((List.range 4).filter (· != 3)).map fun k => ((testBench.modDie 0 fun d => { d with power := 1 }).dieAt k).power).sum + 2000 ∧
      testBench.hub.sampctl.getLsbD 7 = false ∧ (testBench.modHub fun h => { h with sampctl := 0x8A }).hub.sampctl.getLsbD 7 = true ∧
      0 ∈ testBench.coreNums ∧ (testBench.slotAt 0 0).st ≠ .empty ∧ dieOfKey 0x10100 = some 0 ∧ testBench.poisoned 0x10100 1 = false ∧ (testBench.foundError 0x10100 1).poisoned 0x10100 1 = true ∧ (85 : Int) < 86 ∧ (79 : Int) < 80 := by
  decide +kernel
/-- A number as bytes, most significant first. -/
def bigBytes (n v : Nat) : List Byte := (bytesLE n v).reverse
/-- A key pair's public point, its hash, and images of 4 bytes signed under it outside Lean, by Python's SHA-384 and the curve's group
law: root firmware of SVN 5 and service firmware of SVN 6. -/
def testKey : List Byte :=
  bigBytes 48 0x4c1743ef94d41c4a514c5ec893d6735de57d0992ad140ff88f4eeca9c850dae5b40f902ea3397abc5013e9b1735316c8 ++
    bigBytes 48 0x5638ccc4e35947500c9c2779ffa52271f274920b18977521cc6313b8a9b0bf3b595428a33d10cd0c1b787e251863a7c8
def testFuses : Fuses :=
  { rootHash := bigBytes 48 0xc5681ceab4e7915ed247ee5c84cfd848edfd0a2060c376b99b21b21ca066bf0595343e66b3841580baf61ffe504180f2
    serviceKey := testKey, rootSvn := 5, serviceSvn := 6 }
def testImageOf (kind svn r s : Nat) : FwImage :=
  { key := testKey
    bytes := bytesLE 4 0x4B4C4649 ++ bytesLE 2 kind ++ bytesLE 2 svn ++ bytesLE 8 4 ++
      bigBytes 48 0x5a667d62430a8c253ebae433333904dc6e1d41dcdc479704773159b905a3ad82d2bad7762d81a366cc46fbb2e2327f5c ++
      List.replicate 64 0 ++ bigBytes 48 r ++ bigBytes 48 s ++ List.replicate 32 0 ++ [1, 2, 3, 4] }
def rootImage : FwImage := testImageOf 1 5
  0x60834ad00048c9255e9d79d2dd2044f87ee0c504ff12c2fd2c942b06cacf1cace7bb493bc44c8d7fe225ef420c78964c
  0x2acf94182572d08051376c22a786821790a2fc1a187a55442a097dd68500b3f73f3c4c4f5e5402b7b636de868760e601
def serviceImage : FwImage := testImageOf 2 6
  0x60834ad00048c9255e9d79d2dd2044f87ee0c504ff12c2fd2c942b06cacf1cace7bb493bc44c8d7fe225ef420c78964c
  0x18e20b67945aa7a44fc2d1d6b70414dee638da0f4f7b308af23a22c3730ada82d9e6a4f2111abe54a60cbfa59056d787
theorem test_rootImage_verified : FwImage.verified rootImage testFuses 1 = true := by decide +kernel
theorem test_serviceImage_verified : FwImage.verified serviceImage testFuses 2 = true := by decide +kernel
theorem test_meets_ResetEvents_images :
    FwImage.verified rootImage { testFuses with rootSvn := 6 } 1 = false ∧ FwImage.verified rootImage testFuses 2 = false ∧
      FwImage.verified { rootImage with bytes := rootImage.bytes.dropLast ++ [5] } testFuses 1 = false ∧
      FwImage.verified serviceImage Fuses.init 1 = false ∧ FwImage.verified serviceImage Fuses.init 2 = false ∧
      State.reset.hub.fuses = Fuses.init := by decide +kernel
theorem test_meets_ResetEvents_registers :
    (testBench.modHub fun h => { h with rootRuns := true }).hub.rootRuns = true ∧ testBench.hub.rootRuns = false ∧
      ({ Queue.init with area := (0, 0x400) }.reg.valid = false ∧ { Queue.init with area := (0, 0x400) }.area = (0, 0x400) ∧
        Queue.init.area ≠ (64, 0x400)) ∧ testBench.hub.losses = [] ∧ testBench.poison = [] ∧ RegWrite.byRoot (.hold 2) = true := by decide +kernel
theorem test_meets_ResetEvents :
    testQueue.reg.valid = true ∧ testBench.hub.silent = [] ∧ testBench.hub.ready = false ∧ (queueBench id []).hub.ready = true ∧ testBench.poison = [] ∧ testBench.hub.bootfail = false ∧ testBench.hub.warm = false ∧
      (testBench.modHub fun h => { h with warm := true }).hub.warm = true ∧
      tabGet (queueBench id []).hub.queues 2 = some testQueue ∧ testBench.inQueueRegion 0x20000 = false ∧ spaceOf (hostKey 0) = .host := by
  decide +kernel
/-! ### Witnesses: the whole machine -/

theorem test_meets_InstructionFrames :
    (encodeA (.add 1 2 3)).isSome = true ∧ (∃ t, exec (.add 1 2 3) testBench = .next t) ∧ (∃ t, exec (.st .d false 1 2 0) testBench = .next t) ∧
      ((accBench (.store 8 [(.mem 0x1FFF8, 3)] 0 [0xFFF8]) id).ctxAt 0 0).accs.find? (fun x => x.id == 5) =
        some (accOf (.store 8 [(.mem 0x1FFF8, 3)] 0 [0xFFF8])) ∧ (testBench.slotAt 0 0).st ≠ .settle ∧ (testBench.ctxAt 0 0).trail = false :=
  ⟨by decide +kernel, ⟨_, rfl⟩, ⟨_, rfl⟩, by decide +kernel, by decide +kernel, by decide +kernel⟩
theorem test_meets_DecodeEncodeRoundTrip :
    (Instr.swrun 15 0).wellFormed = true ∧ (encodeC (.swrun 15 0)).isSome = true ∧ decodeC 0x01E87800 0 = some (.swrun 15 0) ∧
      decodeA 0x04000000 ≠ none ∧ decodeX 0x04000000 ≠ none := by decide +kernel
/-- The bench about to step: ADD g3, g1, g2 in the A slot at the PC. -/
def stepBench : State := { State.words (benchG [(1, 5), (2, 6)]) [(0x11000, (0x04000000 + 3 * 2 ^ 17 + 1 * 2 ^ 13 + 2 * 2 ^ 9) * 2 ^ 32)] with
  clk := 0 }
theorem test_meets_StepRunsInstruction :
    (let p : Pair := ⟨false, ⟨0, false, .cnop⟩, ⟨0, false, .add 3 1 2⟩⟩
     let u0 : State := { stepBench.tick with core := 0, slot := 0, pair := 0, popped := [] }
     let u : State := { u0.cacheFetch (0x0406240000000000, .ok p) with pair := 0x0406240000000000 }
     u0.inCache.isNone = true ∧ stepBench.agenda = [] ∧ stepBench.focus = 0 ∧ (u.slotAt 0 0).st = .ready ∧ u.ctx.late = [] ∧ (u.slotAt 0 0).stops = false ∧ u.rdt = false ∧
       u.codeBase u.ctx.rcb ≤ u.ctx.pc ∧ u.ctx.pc < u.codeEnd u.ctx.rcb ∧ u.resolve u.who u.ctx.pc .fetch = .ok (.mem 0x11000) ∧
       u.dataFault 0x11000 8 false = none ∧ u.load 0x11000 8 = 0x0406240000000000 ∧
       decodePair 0 0x04062400 = some p ∧ stepBench.tick.choose 0 [] = some 0 ∧
       (match exec (.add 3 1 2) u with | .next v => decide ((v.ctxAt 0 0).pairs ≠ (u.ctxAt 0 0).pairs) | _ => false) = true) ∧
      ({ stepBench with agenda := [.event (.containment 0)] } : State).agenda = .event (.containment 0) :: [] ∧
      State.reset.tick.choose 0 [] = none ∧ ({ stepBench with agenda := [.decide 0 0] } : State).agenda = .decide 0 0 :: [] ∧
      (∀ c ∈ testBench.keptTasks, c.obls = (testBench.taskBefore c.tid).obls ∧ c.bp = (testBench.taskBefore c.tid).bp ∧
        c.tid = (testBench.taskBefore c.tid).tid ∧ c.bpSession = (testBench.taskBefore c.tid).bpSession) := by
  exact @of_decide_eq_true _ (letI := @decE; inferInstance) (by decide +kernel)
theorem test_meets_MemoryCanonical : testBench.Sound ∧ ∃ t, step testBench = .next t := by
  constructor
  · unfold State.Sound; decide +kernel
  · unfold step; exact ⟨_, rfl⟩
/-! ### Steps and events on small states -/

/-- A g register and the PC after the first step from reset with a word in place (log 8). -/
def firstStep (nbits w : Nat) (d : GIx) : Option (Word × Word × SlotSt) := match step (State.reset.withFetchWord nbits w) with
  | .next t => some ((t.ctxAt 0 0).g[d].val, (t.ctxAt 0 0).pc, (t.slotAt 0 0).st)
  | _ => none
theorem test_first_step_movl : firstStep 64 (0x12345678 * 2 ^ 32 + 0x80280000 + 9 * 2 ^ 15) 9 = some (0x12345678, 0x40008, .issued) := by
  decide +kernel
theorem test_first_step_add : firstStep 32 (0x04000000 + 3 * 2 ^ 17 + 1 * 2 ^ 13 + 2 * 2 ^ 9) 3 = some (0, 0x40008, .issued) := by decide +kernel
/-- R121: TRAPI with nothing outstanding leaves the record with its code and its pair's address. -/
theorem test_trapi_record : trapOf (exec (.trapi 0x41) testBench) = some (0x29, 0x41, 0x1000) := by decide +kernel
/-- R191: SIGNAL on a counter adds the value and discharges the entry. -/
theorem test_signal_counter :
    (match exec (.signal 1 2) ((answeredBench (objBench (objOf 1 5 40 0 0 1) [oblOf 0x10200 5 1])).modCtx fun c => (c.setG 1 0x200).setG 2 2) with
    | .next t => some ((t.obj 0x10200).value, (t.obj 0x10200).owed, t.ctx.obls.length)
    | _ => none) = some (42, 0, 0) := by decide +kernel
/-- R187: OBLIGE takes an entry and counts it in OWED. -/
theorem test_oblige_counter :
    (match exec (.oblige 1) ((answeredBench (objBench (objOf 1 5 40 0 0 0) [])).modCtx fun c => c.setG 1 0x200) with
    | .next t => some ((t.obj 0x10200).value, (t.obj 0x10200).owed, t.ctx.obls.map fun e => (e.ref, e.rank))
    | _ => none) = some (40, 1, [(ObjRef.local_ 0x10200, 5)]) := by decide +kernel
/-- R331: a NOP entry completes OK, and its record says so. -/
theorem test_nop_entry_completes :
    (match exec (.nopEntry 2) (queueBench id [0x50000]) with
    | .next t => (t.queueAt 2).head == 1 && (t.queueAt 2).entries.map (fun e => e.tag) == [5] &&
      (t.queueAt 2).entries.all fun e => e.result.map (fun r => r.1) == some 0
    | _ => false) = true := by decide +kernel
/-- R242, R252: the activation of CIN c1; CPUT E, c1; CDONE, once it has come to CDONE with the tensor's word in E, leaves that
word in the cell and the cell DONE. -/
theorem test_band_visit_retires :
    let a := { Act.init with entry := 2, i := 3, pc := 2, next := 2, e := 77, status := .running }
    let x := { testHerd with
      plen := 2, prog := [.cin 1, .cput .e 1, .cdone]
      run := some { testHRun with cursor := some 0, at_ := some { k := 3, act := some (a, 1, 0) } } }
    (match exec (.bandVisit 0) (herdBench x) with
    | .next t => some (match t.readCell 0 x 3 with | .ok c => some (c.done, c.flt, c.e, c.pc) | .error _ => none)
    | _ => none) = some (some (true, false, 77, 2)) := by decide +kernel
/-- R353, R160: a READ through a window is answered with the bytes. -/
theorem test_peer_read_answered :
    (match exec (.pktRead (pktOf 3 0x110 4)) ((winBench (testCounter []) true true true).store 0x12010 4 0x01020304) with
    | .next t => some (t.net.map fun q => (q.typ, q.dst, q.payload))
    | _ => none) = some [(4, 5, [4, 3, 2, 1])] := by decide +kernel
/-- R356: a counted WRITE stores its bytes and counts. -/
theorem test_peer_write_counted :
    (match exec (.pktWrite (pktOf 1 0x110 4)) (winBench (testCounter []) true true true) with
    | .next t => some (t.load 0x12010 4, (tabGet (t.dieAt 0).counters 0).map fun c => c.counts.headD 0)
    | _ => none) = some (0x07070707, some 1) := by decide +kernel
end

section
/-! Integer arithmetic and immediates (05, R94 to R102): the model's result functions as operations on 64-bit words,
and the statements on the integer ALU and on the immediate forms. -/

namespace Sys2Proof.Machine

/-! ### From a plan to the pair that issues -/

/-- A two-operand instruction on g registers whose result and flags come to `r`. -/
theorem issuesG_of_alu2 {i : Instr} {s : State} {d a b : GIx} {r r' : Word × Flags}
    (h : exec i s = .next (issueOne (alu2 s d a b r') s)) (e : r' = r) : IssuesG i s [a, b] d r :=
  e ▸ issues_of_gated h

/-- A one-operand instruction on g registers whose result and flags come to `r`. -/
theorem issuesG_of_alu1 {i : Instr} {s : State} {d a : GIx} {r r' : Word × Flags}
    (h : exec i s = .next (issueOne (alu1 s d a r') s)) (e : r' = r) : IssuesG i s [a] d r :=
  e ▸ issues_of_gated h

/-- An instruction on g registers that sets no flag and whose plan only writes the result `v`. -/
theorem issuesG_of_write {i : Instr} {s : State} {gs : List GIx} {d : GIx} {v w : Word}
    (h : exec i s = .next (issueOne (gated s gs [] [d] [] (.act fun t => t.writeG d w)) s)) (e : w = v) :
    IssuesG i s gs d (v, 0) := by
  subst e
  simpa only [IssuesG, State.writeG_raise_zero] using issues_of_gated h

/-! ### Narrowing to 64 bits (R82, R96) -/

/-- Narrowing to 64 bits wraps or clamps as `clamped` does, for any word that holds the low bits of the exact value. -/
theorem narrowSigned_eq_clamped {sat : Bool} {z : Int} {w : Word} (h : BitVec.ofInt 64 z = w) :
    narrowSigned 64 sat z = clamped sat z w := by
  subst h
  rfl

theorem addW_eq_clamped (sat : Bool) (x y : Word) : addW sat x y = clamped sat (x.toInt + y.toInt) (x + y) :=
  narrowSigned_eq_clamped (by simp [BitVec.ofInt_add])

theorem subW_eq_clamped (sat : Bool) (x y : Word) : subW sat x y = clamped sat (x.toInt - y.toInt) (x - y) :=
  narrowSigned_eq_clamped (by simp [Int.sub_eq_add_neg, BitVec.ofInt_add, BitVec.ofInt_neg, BitVec.sub_eq_add_neg])

theorem mulW_eq_clamped (sat : Bool) (x y : Word) : mulW sat x y = clamped sat (x.toInt * y.toInt) (x * y) :=
  narrowSigned_eq_clamped (by simp [BitVec.ofInt_mul])

/-- ADDI adds the exact value of its immediate, which the sign extension keeps (R98). -/
theorem addW_signExtend_eq_clamped (sat : Bool) (x : Word) (imm : BitVec 13) :
    addW sat x (imm.signExtend 64) = clamped sat (x.toInt + imm.toInt) (x + imm.signExtend 64) := by
  rw [addW_eq_clamped, BitVec.toInt_signExtend_of_le (by decide)]

/-! ### High halves of products (R95) -/

/-- Bits 127:64 of an exact integer are the low 64 bits of its quotient by 2^64, rounded down. -/
theorem extractLsb'_high_ofInt (z : Int) : (BitVec.ofInt 128 z).extractLsb' 64 64 = BitVec.ofInt 64 (z / 2 ^ 64) := by
  apply BitVec.eq_of_toNat_eq
  simp only [BitVec.extractLsb'_toNat, BitVec.toNat_ofInt, Nat.shiftRight_eq_div_pow]
  omega

theorem mulhW_eq (x y : Word) : mulhW x y = (x.signExtend 128 * y.signExtend 128).extractLsb' 64 64 := by
  have product : BitVec.ofInt 128 (x.toInt * y.toInt) = x.signExtend 128 * y.signExtend 128 := BitVec.ofInt_mul ..
  rw [← product, extractLsb'_high_ofInt, mulhW]

theorem mulhuW_eq (x y : Word) : mulhuW x y = (x.zeroExtend 128 * y.zeroExtend 128).extractLsb' 64 64 := by
  have product : (x.zeroExtend 128 * y.zeroExtend 128).toNat = x.toNat * y.toNat % 2 ^ 128 := by simp
  apply BitVec.eq_of_toNat_eq
  simp only [mulhuW, BitVec.extractLsb'_toNat, product, BitVec.toNat_ofNat, Nat.shiftRight_eq_div_pow]
  omega

/-! ### Division (R97) -/

theorem ofInt_tdiv (x y : Word) : BitVec.ofInt 64 (x.toInt.tdiv y.toInt) = x.sdiv y :=
  BitVec.eq_of_toInt_eq (by rw [BitVec.toInt_ofInt, BitVec.toInt_sdiv])

theorem ofInt_tmod (x y : Word) : BitVec.ofInt 64 (x.toInt.tmod y.toInt) = x.srem y := by
  rw [← BitVec.toInt_srem, BitVec.ofInt_toInt]

theorem divW_eq (sat : Bool) (x y : Word) : divW sat x y =
    if y = 0 then (0xFFFFFFFFFFFFFFFF, Flag.dz) else clamped sat (x.toInt.tdiv y.toInt) (x.sdiv y) := by
  rw [divW, narrowSigned_eq_clamped (ofInt_tdiv x y)]
  rfl

theorem divuW_eq (x y : Word) : divuW x y = if y = 0 then (0xFFFFFFFFFFFFFFFF, Flag.dz) else (x / y, 0) := by
  rw [divuW, ← BitVec.udiv_def]
  rfl

/-- The one pair of operands whose quotient leaves the range is also the one whose remainder SAT flags (R97). -/
theorem remW_eq (sat : Bool) (x y : Word) : remW sat x y =
    if y = 0 then (x, Flag.dz)
    else if sat = true ∧ x = 0x8000000000000000 ∧ y = 0xFFFFFFFFFFFFFFFF then (0, Flag.satur ||| Flag.of)
    else (x.srem y, 0) := by
  have overflow : (sat && x == minInt && y == BitVec.allOnes 64) = true ↔
      sat = true ∧ x = 0x8000000000000000 ∧ y = 0xFFFFFFFFFFFFFFFF := by
    have ones : BitVec.allOnes 64 = 0xFFFFFFFFFFFFFFFF := rfl
    simp only [Bool.and_eq_true, beq_iff_eq, and_assoc, minInt, ones]
  simp only [remW, ofInt_tmod, flagIf, overflow]
  by_cases zero : y = 0
  · rw [if_pos zero, if_pos zero]
  · rw [if_neg zero, if_neg zero]
    by_cases least : sat = true ∧ x = 0x8000000000000000 ∧ y = 0xFFFFFFFFFFFFFFFF
    · rw [if_pos least, if_pos least]
      obtain ⟨-, rfl, rfl⟩ := least
      rfl
    · rw [if_neg least, if_neg least]

theorem remuW_eq (x y : Word) : remuW x y = if y = 0 then (x, Flag.dz) else (x % y, 0) := by
  rw [remuW, ← BitVec.umod_def]

/-! ### Minimum and maximum (R95) -/

theorem ite_slt_eq_ite_toInt_le {α : Type} (x y : Word) (u v : α) :
    (if x.slt y then u else v) = if y.toInt ≤ x.toInt then v else u := by
  simp only [BitVec.slt_iff_toInt_lt, ← Int.not_le, ite_not]

theorem ite_ult_eq_ite_toNat_le {α : Type} (x y : Word) (u v : α) :
    (if x.ult y then u else v) = if y.toNat ≤ x.toNat then v else u := by
  simp only [BitVec.ult_iff_toNat_lt, ← Nat.not_le, ite_not]

/-! ### Constants (R101) -/

/-- MOVH puts its literal above the low half of the old value. -/
theorem append_truncate_eq_or (lit : BitVec 32) (x : Word) :
    lit ++ x.truncate 32 = (lit.zeroExtend 64 <<< 32) ||| (x &&& 0x00000000FFFFFFFF) := by
  have mask : x.toNat &&& 0xFFFFFFFF = x.toNat % 2 ^ 32 := Nat.and_two_pow_sub_one_eq_mod _ 32
  have low : (x.truncate 32).setWidth 64 = x &&& 0x00000000FFFFFFFF := BitVec.eq_of_toNat_eq (by simp [mask]; omega)
  calc lit ++ x.truncate 32 = (lit ++ x.truncate 32).setWidth 64 := (BitVec.setWidth_eq _).symm
    _ = (lit.zeroExtend 64 <<< 32) ||| (x.truncate 32).setWidth 64 := BitVec.setWidth_append_eq_shiftLeft_setWidth_or
    _ = (lit.zeroExtend 64 <<< 32) ||| (x &&& 0x00000000FFFFFFFF) := by rw [low]

/-! ### The statements -/

/-- Settles O1: each plan is `alu2` or `alu1`, and its result is the word operation that the statement names. -/
theorem integerAluResults : Obligations.IntegerAluResults := by
  intro s d a b
  exact ⟨
    -- ADD, SUB, MUL
    issuesG_of_alu2 rfl (addW_eq_clamped ..), issuesG_of_alu2 rfl (subW_eq_clamped ..),
    issuesG_of_alu2 rfl (mulW_eq_clamped ..),
    -- MULH, MULHU
    issuesG_of_alu2 rfl (congrArg (·, 0) (mulhW_eq ..)), issuesG_of_alu2 rfl (congrArg (·, 0) (mulhuW_eq ..)),
    -- DIV, DIVU, REM, REMU
    issuesG_of_alu2 rfl (divW_eq ..), issuesG_of_alu2 rfl (divuW_eq ..),
    issuesG_of_alu2 rfl (remW_eq ..), issuesG_of_alu2 rfl (remuW_eq ..),
    -- AND, OR, XOR, ANDN
    issuesG_of_alu2 rfl rfl, issuesG_of_alu2 rfl rfl, issuesG_of_alu2 rfl rfl, issuesG_of_alu2 rfl rfl,
    -- SHL, SHR, SRA
    issuesG_of_alu2 rfl rfl, issuesG_of_alu2 rfl rfl, issuesG_of_alu2 rfl rfl,
    -- MIN, MAX, MINU, MAXU
    issuesG_of_alu2 rfl (congrArg (·, 0) (ite_slt_eq_ite_toInt_le ..)),
    issuesG_of_alu2 rfl (congrArg (·, 0) (ite_slt_eq_ite_toInt_le ..)),
    issuesG_of_alu2 rfl (congrArg (·, 0) (ite_ult_eq_ite_toNat_le ..)),
    issuesG_of_alu2 rfl (congrArg (·, 0) (ite_ult_eq_ite_toNat_le ..)),
    -- MOV
    issuesG_of_alu1 rfl rfl⟩

/-- Settles O2: as O1, from the plans of the immediate forms, the constants and LEA. -/
theorem immediateResults : Obligations.ImmediateResults := by
  intro s d a b imm sh lit q i6
  exact ⟨
    -- ADDI, ANDI, ORI, XORI
    issuesG_of_alu1 rfl (addW_signExtend_eq_clamped ..),
    issuesG_of_alu1 rfl rfl, issuesG_of_alu1 rfl rfl, issuesG_of_alu1 rfl rfl,
    -- SHLI, SHRI, SRAI
    issuesG_of_alu1 rfl rfl, issuesG_of_alu1 rfl rfl, issuesG_of_alu1 rfl rfl,
    -- MOVI, MOVL, MOVH
    issuesG_of_write rfl rfl, issuesG_of_write rfl rfl, issuesG_of_write rfl (append_truncate_eq_or ..),
    -- LEA
    issuesG_of_alu2 rfl rfl⟩

end Sys2Proof.Machine
end
